-- ==== Sys2Proof/Word.lean ====
section
/-! DEFINITION. The word types of the block (00_scope.md R15, section 4 "Notation"). -/

namespace Sys2Proof

/-- A byte: 8 bits (00_scope.md section 4). -/
abbrev Byte := BitVec 8

/-- A 16-bit word: CRC accumulator, Modbus register address or value (R15). -/
abbrev Half := BitVec 16

/-- A 32-bit word: command argument, status-bank word (R15, R52). -/
abbrev Word := BitVec 32

/-- A frame: its bytes in transmission order, index 0 first (00_scope.md section 4). -/
abbrev Frame := List Byte

/-- A host, told apart only by where its response goes (60_exceptions.md R240). -/
abbrev HostId := Nat

end Sys2Proof
end

