-- ==== Sys2Proof/Machine/Constants.lean ====
section
/-! DEFINITION. The fixed constants of the protocol (00_scope.md R1–R4, R6–R11, R14). -/

namespace Sys2Proof.Machine

/-- `DEV_ID` (R1). -/
def devId : Byte := 0x09#8

/-- `FC_WRITE`, write-multiple-registers (R2). -/
def fcWrite : Byte := 0x10#8

/-- `FC_READ`, read-holding-registers (R6; the number is the spec's general knowledge, GK1). -/
def fcRead : Byte := 0x03#8

/-- `REQ_ADDR` (R3). -/
def reqAddr : Half := 0x03E8#16

/-- `REG_COUNT` (R4). -/
def regCount : Half := 0x0003#16

/-- `BYTE_COUNT` (R4). -/
def byteCount : Byte := 0x06#8

/-- `ACK_LEN` (R7). -/
def ackLen : Nat := 8

/-- `STATUS_LEN` (R7). -/
def statusLen : Nat := 11

/-- `ACT_BIT` (R8). -/
def actBit : Byte := 0x01#8

/-- `MOTION_ACTION` (R8): go-to and activation bits. -/
def motionAction : Byte := 0x09#8

/-- `STA_OFF` (R9). -/
def staOff : Nat := 3

/-- `POS_OFF` (R9). -/
def posOff : Nat := 7

/-- `CUR_OFF` (R9). -/
def curOff : Nat := 8

/-- `ACK_NIBBLE` (R10). -/
def ackNibble : BitVec 4 := 0x3#4

/-- `CUR_SCALE` (R11). -/
def curScale : BitVec 12 := 10#12

/-- The high byte of a 16-bit number, `v[15:8]`. -/
def hiByte (v : Half) : Byte := v.extractLsb' 8 8

/-- The low byte of a 16-bit number, `v[7:0]`. -/
def loByte (v : Half) : Byte := v.extractLsb' 0 8

end Sys2Proof.Machine
end

