-- ==== Sys2Proof/Syntax.lean ====
section
/-! DEFINITION. The instructions: one constructor per row of spec/opcode_table.json (30_encoding.md
R76 for the commands, R81–R87 for the wire frames), and the port an encoded instruction stands on. -/

namespace Sys2Proof

/-- The fields of a 128-bit request word (30_encoding.md R75). -/
structure Request where
  /-- OP, bits [7:0]. -/
  op : Byte
  /-- RSV, bits [31:8]. -/
  rsv : BitVec 24
  /-- A0, bits [63:32]. -/
  a0 : Word
  /-- A1, bits [95:64]. -/
  a1 : Word
  /-- A2, bits [127:96]. -/
  a2 : Word
deriving DecidableEq, Repr

/-- The instructions: nine commands (30_encoding.md R76), four frames the block transmits (R82–R85) and
two it receives (R86, R87). Ignored arguments (R79) are not kept. -/
inductive Instr where
  /-- OPEN (R194). -/
  | openCmd
  /-- CLOSE (R195). -/
  | closeCmd
  /-- ACTIVATE (R183). -/
  | activate
  /-- SET_POSITION with position, speed and force in Q24.8 (R196). -/
  | setPosition (a0 a1 a2 : Word)
  /-- GET_POSITION (R197). -/
  | getPosition
  /-- GET_CURRENT (R198). -/
  | getCurrent
  /-- GET_STATUS (R199). -/
  | getStatus
  /-- CRC_INIT (R115). -/
  | crcInit
  /-- CRC_BYTE with the byte A0[7:0] (R116). -/
  | crcByte (b : Byte)
  /-- FRAME_CLEAR (R83): the fixed clear frame. -/
  | frameClear
  /-- FRAME_ACTIVATE (R84): the fixed activate frame. -/
  | frameActivate
  /-- FRAME_MOTION (R85): position, speed and force bytes, and the CRC trailer as a number. -/
  | frameMotion (p v f : Byte) (crc : Half)
  /-- FRAME_STATUS_READ (R82): the status address, and the CRC trailer as a number. -/
  | frameStatusRead (addr crc : Half)
  /-- FRAME_WRITE_ACK (R86): the 8 received bytes. -/
  | frameWriteAck (bytes : Frame)
  /-- FRAME_STATUS_RESPONSE (R87): the 11 received bytes. -/
  | frameStatusResponse (bytes : Frame)
deriving DecidableEq, Repr

/-- An encoded instruction, with the place it stands at: a request word on the command port (R75), a
frame the block sends, or a frame it receives. The block tells frames apart by what it expects, never
by their content (R88), so the direction is part of the encoding. -/
inductive Encoding where
  | request (w : BitVec 128)
  | sent (f : Frame)
  | received (f : Frame)
deriving DecidableEq, Repr

/-- Why bits are no instruction. -/
inductive DecodeError where
  /-- RSV is not zero (R78). -/
  | reservedNonzero
  /-- The OP is reserved (R77). -/
  | reservedOp
  /-- No frame the block sends has this form (R89). -/
  | notASentFrame
  /-- No frame the block waits for has this length (R88). -/
  | notAReceivedFrame
deriving DecidableEq, Repr

end Sys2Proof
end

