-- ==== Sys2Proof/Decode.lean ====
section
/-! DEFINITION. The decoder, total on any request word and any bytes, and the encoder, both written from
the encodings of 30_encoding.md and spec/opcode_table.json. -/

namespace Sys2Proof

open Machine

/-- The fields of a request word (R75). -/
def Request.ofWord (w : BitVec 128) : Request where
  op := w.extractLsb' 0 8
  rsv := w.extractLsb' 8 24
  a0 := w.extractLsb' 32 32
  a1 := w.extractLsb' 64 32
  a2 := w.extractLsb' 96 32

/-- The request word with these fields (R75). -/
def Request.toWord (r : Request) : BitVec 128 :=
  r.a2 ++ r.a1 ++ r.a0 ++ r.rsv ++ r.op

/-- The command a request asks for (R76), or why it asks for none (R77, R78). RSV is tested whatever
the OP is. -/
def decodeRequest (r : Request) : Except DecodeError Instr :=
  if r.rsv ≠ 0#24 then .error .reservedNonzero
  else if r.op = 0x01#8 then .ok .openCmd
  else if r.op = 0x02#8 then .ok .closeCmd
  else if r.op = 0x03#8 then .ok .activate
  else if r.op = 0x04#8 then .ok (.setPosition r.a0 r.a1 r.a2)
  else if r.op = 0x05#8 then .ok .getPosition
  else if r.op = 0x06#8 then .ok .getCurrent
  else if r.op = 0x07#8 then .ok .getStatus
  else if r.op = 0x10#8 then .ok .crcInit
  else if r.op = 0x11#8 then .ok (.crcByte (r.a0.extractLsb' 0 8))
  else .error .reservedOp

/-- A write request whose payload is given (R81, R83–R85). The trailer of the two constant frames is
part of their row; the trailer of a motion frame is an operand. -/
def decodeWritePayload : Byte → Byte → Byte → Byte → Byte → Byte → Byte → Byte → Except DecodeError Instr
  | p0, p1, p2, p3, p4, p5, lo, hi =>
    if [p0, p1, p2, p3, p4, p5, lo, hi] =
        [0x00#8, 0x00#8, 0x00#8, 0x00#8, 0x00#8, 0x00#8, 0x73#8, 0x30#8] then .ok .frameClear
    else if [p0, p1, p2, p3, p4, p5, lo, hi] =
        [0x01#8, 0x00#8, 0x00#8, 0x00#8, 0x00#8, 0x00#8, 0x72#8, 0xE1#8] then .ok .frameActivate
    else if [p0, p1, p2] = [0x09#8, 0x00#8, 0x00#8] then .ok (.frameMotion p3 p4 p5 (hi ++ lo))
    else .error .notASentFrame

/-- The frame the block sends that has these bytes (R81–R85). -/
def decodeSent : Frame → Except DecodeError Instr
  | [b0, b1, b2, b3, b4, b5, b6, p0, p1, p2, p3, p4, p5, lo, hi] =>
    if [b0, b1, b2, b3, b4, b5, b6] = [0x09#8, 0x10#8, 0x03#8, 0xE8#8, 0x00#8, 0x03#8, 0x06#8] then
      decodeWritePayload p0 p1 p2 p3 p4 p5 lo hi
    else .error .notASentFrame
  | [b0, b1, ah, al, b4, b5, lo, hi] =>
    if [b0, b1, b4, b5] = [0x09#8, 0x03#8, 0x00#8, 0x03#8] then
      .ok (.frameStatusRead (ah ++ al) (hi ++ lo))
    else .error .notASentFrame
  | _ => .error .notASentFrame

/-- The frame the block receives: told by its length alone (R86–R88). -/
def decodeReceived (f : Frame) : Except DecodeError Instr :=
  if f.length = 8 then .ok (.frameWriteAck f)
  else if f.length = 11 then .ok (.frameStatusResponse f)
  else .error .notAReceivedFrame

/-- The decoder. -/
def decode : Encoding → Except DecodeError Instr
  | .request w => decodeRequest (Request.ofWord w)
  | .sent f => decodeSent f
  | .received f => decodeReceived f

/-- The request of a command, with every unused field 0 (R90). The wire frames are no requests. -/
def commandRequest (op : Byte) (a0 a1 a2 : Word) : Encoding :=
  .request (Request.toWord ⟨op, 0#24, a0, a1, a2⟩)

/-- The encoder, from the tables of 30_encoding.md R76 and R81–R87. -/
def encode : Instr → Encoding
  | .openCmd => commandRequest 0x01#8 0 0 0
  | .closeCmd => commandRequest 0x02#8 0 0 0
  | .activate => commandRequest 0x03#8 0 0 0
  | .setPosition a0 a1 a2 => commandRequest 0x04#8 a0 a1 a2
  | .getPosition => commandRequest 0x05#8 0 0 0
  | .getCurrent => commandRequest 0x06#8 0 0 0
  | .getStatus => commandRequest 0x07#8 0 0 0
  | .crcInit => commandRequest 0x10#8 0 0 0
  | .crcByte b => commandRequest 0x11#8 (b.setWidth 32) 0 0
  | .frameClear => .sent [0x09#8, 0x10#8, 0x03#8, 0xE8#8, 0x00#8, 0x03#8, 0x06#8,
      0x00#8, 0x00#8, 0x00#8, 0x00#8, 0x00#8, 0x00#8, 0x73#8, 0x30#8]
  | .frameActivate => .sent [0x09#8, 0x10#8, 0x03#8, 0xE8#8, 0x00#8, 0x03#8, 0x06#8,
      0x01#8, 0x00#8, 0x00#8, 0x00#8, 0x00#8, 0x00#8, 0x72#8, 0xE1#8]
  | .frameMotion p v f crc => .sent [0x09#8, 0x10#8, 0x03#8, 0xE8#8, 0x00#8, 0x03#8, 0x06#8,
      0x09#8, 0x00#8, 0x00#8, p, v, f, loByte crc, hiByte crc]
  | .frameStatusRead addr crc =>
    .sent [0x09#8, 0x03#8, hiByte addr, loByte addr, 0x00#8, 0x03#8, loByte crc, hiByte crc]
  | .frameWriteAck bytes => .received bytes
  | .frameStatusResponse bytes => .received bytes

/-- The `n` bytes of a row's number, first byte leftmost, that is, most significant (the "format" of
the frame rows of spec/opcode_table.json). Log 17. -/
def frameOfNat : Nat → Nat → Frame
  | 0, _ => []
  | n + 1, w => BitVec.ofNat 8 (w >>> (8 * n)) :: frameOfNat n w

/-- Where the bits of an opcode-table row stand: 15 bytes are a sent frame, 11 bytes a received one, 8
bytes a status read if they have its fixed bytes and else an acknowledgement (whose row fixes no bit);
anything else is a request word whose bits above `nbits` are 0. Log 17. -/
def tableEncoding (nbits w : Nat) : Encoding :=
  if nbits = 120 then .sent (frameOfNat 15 w)
  else if nbits = 88 then .received (frameOfNat 11 w)
  else if nbits = 64 then
    match decodeSent (frameOfNat 8 w) with
    | .ok _ => .sent (frameOfNat 8 w)
    | .error _ => .received (frameOfNat 8 w)
  else .request (BitVec.ofNat 128 (w % 2 ^ nbits))

/-- The instruction the decoder reads from the bits of an opcode-table row, numbered as the table
numbers them. -/
def decodeTableWord (nbits w : Nat) : Option Instr :=
  (decode (tableEncoding nbits w)).toOption

end Sys2Proof
end

