-- ==== Sys2Proof/Config.lean ====
section
/-! DEFINITION. What is fixed before reset (the OPEN parameters, 00_scope.md R5, R12, R13 and
70_reset_and_hazards.md R265), and the choices the outside makes (the transport oracle, 20_memory.md
R56–R60; the arbiter among hosts, R67). The OPEN parameters and the free choices are opaque: no proof
can use a value of theirs. -/

namespace Sys2Proof

/-- `ROUND_TIE` (00_scope.md R13): how an argument exactly halfway between two integers is rounded. -/
inductive RoundTie where
  | halfEven
  | halfAway
deriving DecidableEq, Repr, Inhabited

/-- The implementation parameters (00_scope.md R5, R12, R13). `tPoll` and `tActTimeout` stand beside
`ticksPerUnit` because "a model may take `T_POLL` and `T_ACT_TIMEOUT` as arguments" (R12). -/
structure Params where
  /-- `STATUS_ADDR` (R5). -/
  statusAddr : Half
  /-- `T_SETTLE` in ticks (R12). -/
  tSettle : Nat
  /-- `TICKS_PER_UNIT` (R12). -/
  ticksPerUnit : Nat
  /-- `T_POLL` in ticks (R12). -/
  tPoll : Nat
  /-- `T_ACT_TIMEOUT` in ticks (R12). -/
  tActTimeout : Nat
  /-- `ROUND_TIE` (R13). -/
  roundTie : RoundTie
deriving DecidableEq, Repr

/-- The time parameters have the defaults of R12: an even `TICKS_PER_UNIT`, half a unit between polls,
ten units for the whole activation. -/
abbrev Params.sourceTimes (p : Params) : Prop :=
  p.ticksPerUnit % 2 = 0 ∧ p.tPoll = p.ticksPerUnit / 2 ∧ p.tActTimeout = 10 * p.ticksPerUnit

/-- What the transport chooses in one transaction (20_memory.md R56–R60). Each primitive reads the
fields it needs.
`dur`: the ticks the transaction takes. `ok`: the result of a `TOpen`. `arrive`: bytes the device
sends while the transaction runs. `count`: how many bytes an `RxRead` returns, cut to what it asked
for and to what is pending. `hang`: an `RxRead` never returns (70_reset_and_hazards.md R268). -/
structure Draw where
  dur : Nat := 0
  ok : Bool := true
  arrive : List Byte := []
  count : Nat := 0
  hang : Bool := false
deriving DecidableEq, Repr, Inhabited

namespace Config

/-- `STATUS_ADDR`, OPEN (00_scope.md R5). Log 5. -/
opaque statusAddr : Half

/-- `T_SETTLE`, OPEN (00_scope.md R12). Log 5. -/
opaque tSettle : Nat

/-- Half of `TICKS_PER_UNIT`, OPEN; the doubling below makes `TICKS_PER_UNIT` even (R12). Log 5. -/
opaque halfUnit : Nat

/-- `ROUND_TIE`, OPEN (00_scope.md R13). Log 5. -/
opaque roundTie : RoundTie

/-- The transport's choice in its n-th transaction, where the state lists none: a free value
(93_implementation_defined.md I1, I6, I7). Log 4. -/
opaque freeDraw : Nat → Draw

/-- The arbiter's n-th choice, where the state lists none: a free value (20_memory.md R67). Log 10. -/
opaque freePick : Nat → Nat

/-- The parameters at reset, with the default times of R12. -/
def params : Params where
  statusAddr := statusAddr
  tSettle := tSettle
  ticksPerUnit := 2 * halfUnit
  tPoll := 2 * halfUnit / 2
  tActTimeout := 10 * (2 * halfUnit)
  roundTie := roundTie

end Config

end Sys2Proof
end

