-- ==== Sys2Proof/Machine/State.lean ====
section
/-! DEFINITION. The state of the block (10_state.md), of the transport agent (R37) and of the host side of
the command port (R39), as plain data; the state after reset (70_reset_and_hazards.md R260); and the
reasons a step of the model can stop. -/

namespace Sys2Proof.Machine

/-- ActivationState (10_state.md R23). Its 2-bit encoding is `ActState.code`. -/
inductive ActState where
  | reset
  | activating
  | activated
  | timedOut
deriving DecidableEq, Repr

/-- The typed failures of a command (60_exceptions.md R230). The 4-bit codes are `FaultCode.code`; codes
8–15 are "never produced" and have no constructor (log 21). -/
inductive FaultCode where
  | none
  | connectionFault
  | commTimeout
  | checksumMismatch
  | notActivated
  | activationTimedOut
  | illegalCommand
  | sessionClosed
deriving DecidableEq, Repr

/-- The core's control point (10_state.md R30). -/
inductive Phase where
  | idle
  | exec
  | xTx
  | xRx
  | oOpen
  | oClose
  | aClr
  | aSet1
  | aAct
  | aSet2
  | aDisc
  | aPtx
  | aPrx
  | aPwait
  | done
deriving DecidableEq, Repr

/-- The arguments of `respond` (45_session_commands.md R192), but for `act`, which is read at the
completion step. -/
structure Resp where
  fault : FaultCode
  pos : Byte
  cur : BitVec 12
  sta : Byte
  crc : Half
  op : Byte
deriving DecidableEq, Repr

/-- What the transport sees (20_memory.md R56–R60, R65), each with `now` when the transaction begins. -/
inductive TransportEvent where
  /-- A `TOpen` and its result (R59). -/
  | opened (ok : Bool) (time : Nat)
  /-- A `TClose` (R60), also the one a reset makes (70_reset_and_hazards.md R261). -/
  | closed (time : Nat)
  /-- A `TxWrite` of a whole frame (R56). -/
  | wrote (f : Frame) (time : Nat)
  /-- An `RxRead` of at most `asked` bytes that returned `got` (R57). -/
  | read (asked : Nat) (got : Frame) (time : Nat)
  /-- An `RxDiscard` (R58). -/
  | discarded (time : Nat)
  /-- The part of a frame the transport saw before a reset cut the write off (R262). -/
  | cut (part : Frame) (time : Nat)
deriving DecidableEq, Repr

/-- What an agent other than the core does between two core steps (45_session_commands.md R191). -/
inductive Event where
  /-- Nobody acts: the core takes its next step. -/
  | core
  /-- Host `h` presents the request word `w` (R190). -/
  | present (h : HostId) (w : BitVec 128)
  /-- Host `h` reads `width` bits of status-bank entry `idx` (20_memory.md R52, R61). -/
  | bankRead (h : HostId) (idx : BitVec 4) (width : Nat)
  /-- The device's bytes `bs` arrive at the transport (10_state.md R37). -/
  | arrive (bs : List Byte)
  /-- The reset input (70_reset_and_hazards.md R260–R262). If it cuts off a `TxWrite`, the transport has
  seen the first `sent` bytes of the frame. -/
  | reset (sent : Nat)
deriving DecidableEq, Repr

/-- The reply to a host's read of the status bank; `none` is the refusal of an access that is not 32
bits wide (20_memory.md R61). -/
structure BankReply where
  host : HostId
  idx : BitVec 4
  word : Option Word
deriving DecidableEq, Repr

/-- The registers a host can see through the status bank (20_memory.md R52). -/
structure Regs where
  /-- SESSION_OPEN (R22). -/
  sessionOpen : Bool
  /-- ACT_STATE (R23). -/
  actState : ActState
  /-- BUSY (R24). -/
  busy : Bool
  /-- LAST_FAULT (R25). -/
  lastFault : FaultCode
  /-- FAULT_LOG (R26). -/
  faultLog : BitVec 8
  /-- CRC_ACC (R27). -/
  crcAcc : Half
  /-- LAST_POS (R28). -/
  lastPos : Byte
  /-- LAST_CUR (R29). -/
  lastCur : BitVec 12
  /-- LAST_STA (R31). -/
  lastSta : Byte
  /-- MOTION_ENC (R32): force, speed, position bytes, position lowest. -/
  motionEnc : BitVec 24
  /-- LAST_OP (R35). -/
  lastOp : Byte
deriving DecidableEq, Repr

/-- Control, time and frame buffers (10_state.md R30, R33, R34, R36, R38). -/
structure Ctl where
  /-- `phase` (R30). -/
  phase : Phase
  /-- `now` (R33). -/
  now : Nat
  /-- DEADLINE (R34). -/
  deadline : Nat
  /-- REQUESTER (R38). -/
  requester : Option HostId
  /-- TXBUF (R36). -/
  txBuf : Frame
  /-- RXBUF (R36). -/
  rxBuf : Frame
  /-- RXLEN (R36). -/
  rxLen : BitVec 4
  /-- The model's own: what the completion step will respond (log 3). -/
  resp : Resp
deriving DecidableEq, Repr

/-- The transport agent. -/
structure Link where
  /-- Pending received bytes, in arrival order (R37). -/
  pending : List Byte
  /-- The model's own: the transport's choices for its next transactions (log 4). -/
  oracle : List Draw
  /-- The model's own: how many transactions there have been; the argument of the free values (log 4). -/
  draws : Nat
  /-- The model's own record: what the transport has seen, oldest first (log 14). -/
  trace : List TransportEvent
deriving DecidableEq, Repr

/-- The host side of the command port. -/
structure Hosts where
  /-- Held requests, at most one per host, by rising host (R39). -/
  held : List (HostId × BitVec 128)
  /-- The model's own: what the other agents do before the next core steps, next first (log 8). -/
  inputs : List Event
  /-- The model's own: the arbiter's next choices (log 10). -/
  picks : List Nat
  /-- The model's own: how many acceptances there have been; the argument of the free picks (log 10). -/
  arbitrations : Nat
  /-- The model's own record: the responses delivered, oldest first (R204; log 14). -/
  responses : List (Option HostId × BitVec 64)
  /-- The model's own record: the replies to status-bank reads, oldest first (log 14). -/
  bankReplies : List BankReply
deriving DecidableEq, Repr

/-- The state of the machine. -/
structure State where
  /-- The parameters, fixed before reset (70_reset_and_hazards.md R265). -/
  params : Params
  /-- The host-visible registers. -/
  regs : Regs
  /-- LATCH_OP, LATCH_RSV, LATCH_A0, LATCH_A1, LATCH_A2 (R21). -/
  latch : Request
  /-- Control, time and buffers. -/
  ctl : Ctl
  /-- The transport agent. -/
  link : Link
  /-- The host side. -/
  hosts : Hosts
deriving DecidableEq, Repr

/-- Why a step of the model stops with a fault. The typed failures of the block (R230) are no such
stop: they are next states. -/
inductive Fault where
  /-- Raised by a command's meaning, and by the core for a request that is no command, at a control
  point that the command's pseudocode does not have. No run reaches one. Safe. Log 15. -/
  | noSuchStep
  /-- Raised by a wire frame's meaning at a control point where the block neither sends nor receives
  that frame. No step of the core runs one there. Safe. Log 16. -/
  | frameOutOfPlace
deriving DecidableEq, Repr

/-- Why an instruction has no meaning. -/
inductive Refusal where
  /-- Raised by an arm of `exec` for an instruction that is not modelled yet; no arm raises it. Safe. -/
  | notModelled (mnemonic : String)
deriving DecidableEq, Repr

/-- The registers after reset (R260). -/
def Regs.reset : Regs where
  sessionOpen := false
  actState := .reset
  busy := false
  lastFault := .none
  faultLog := 0x00#8
  crcAcc := 0xFFFF#16
  lastPos := 0#8
  lastCur := 0#12
  lastSta := 0#8
  motionEnc := 0#24
  lastOp := 0#8

/-- The latches after reset (R260). -/
def Request.reset : Request := ⟨0#8, 0#24, 0#32, 0#32, 0#32⟩

/-- Control, time and buffers after reset (R260). The buffers' contents are unspecified there, and
empty here (log 6); `resp` is the model's own (log 3). -/
def Ctl.reset : Ctl where
  phase := .idle
  now := 0
  deadline := 0
  requester := none
  txBuf := []
  rxBuf := []
  rxLen := 0#4
  resp := ⟨.none, 0#8, 0#12, 0#8, 0#16, 0#8⟩

/-- The transport agent when the block is reset for the first time (logs 4, 7, 14). -/
def Link.reset : Link := ⟨[], [], 0, []⟩

/-- The host side when the block is reset for the first time: no held request (R260), no input. -/
def Hosts.reset : Hosts := ⟨[], [], [], 0, [], []⟩

/-- The machine right after reset (R260). -/
def State.reset : State where
  params := Config.params
  regs := Regs.reset
  latch := Request.reset
  ctl := Ctl.reset
  link := Link.reset
  hosts := Hosts.reset

end Sys2Proof.Machine
end

