-- ==== Sys2Proof/Machine/Flags.lean ====
section
/-! DEFINITION. The status flags and the words built from them: the encodings of ACT_STATE and of the
fault codes, FAULT_LOG, the status bank (20_memory.md R52) and the response word (30_encoding.md R80).
The block has no condition codes (10_state.md R40). -/

namespace Sys2Proof.Machine

/-- The encoding of ACT_STATE (10_state.md R23). -/
def ActState.code : ActState → BitVec 2
  | .reset => 0#2
  | .activating => 1#2
  | .activated => 2#2
  | .timedOut => 3#2

/-- The number of a fault code (60_exceptions.md R230). -/
def FaultCode.num : FaultCode → Nat
  | .none => 0
  | .connectionFault => 1
  | .commTimeout => 2
  | .checksumMismatch => 3
  | .notActivated => 4
  | .activationTimedOut => 5
  | .illegalCommand => 6
  | .sessionClosed => 7

/-- The 4-bit fault code (R230). -/
def FaultCode.code (c : FaultCode) : BitVec 4 :=
  BitVec.ofNat 4 c.num

/-- FAULT_LOG after a command completes with code `c`: bit `c` is set, unless `c` is NONE
(10_state.md R26, 45_session_commands.md R192). -/
def logFault (c : FaultCode) (log : BitVec 8) : BitVec 8 :=
  if c = .none then log else log ||| 1#8 <<< c.num

/-- The 32-bit word of a status-bank entry (20_memory.md R52); entries 8–15 read 0. -/
def bankWord (r : Regs) (idx : BitVec 4) : Word :=
  match idx.toNat with
  | 0 => 0#24 ++ r.lastFault.code ++ r.actState.code ++ BitVec.ofBool r.sessionOpen ++ BitVec.ofBool r.busy
  | 1 => 0#24 ++ r.faultLog
  | 2 => 0#16 ++ r.crcAcc
  | 3 => 0#24 ++ r.lastPos
  | 4 => 0#20 ++ r.lastCur
  | 5 => 0#24 ++ r.lastSta
  | 6 => 0#8 ++ r.motionEnc
  | 7 => 0#24 ++ r.lastOp
  | _ => 0#32

/-- `respond` first zeroes the data of a faulting response (45_session_commands.md R192). -/
def Resp.masked (r : Resp) : Resp :=
  if r.fault = .none then r else { r with pos := 0#8, cur := 0#12, sta := 0#8, crc := 0#16 }

/-- The response word (30_encoding.md R80), from the most significant field down: OP, CRC, STA, a
reserved 0, CUR, POS, a reserved 0, ACT, FAULT. -/
def responseWord (act : ActState) (r : Resp) : BitVec 64 :=
  r.op ++ r.masked.crc ++ r.masked.sta ++ 0#4 ++ r.masked.cur ++ r.masked.pos ++ 0#2 ++ act.code ++ r.fault.code

end Sys2Proof.Machine
end

