-- ==== Sys2Proof/Machine/Codec.lean ====
section
/-! DEFINITION. The CRC-16 codec's pure functions (41_crc_codec.md R110–R114). They read and write no
register: the accumulator they use is private (R118). -/

namespace Sys2Proof.Machine

/-- One of the eight iterations of R110: a logical right shift, and an XOR with 0xA001 when the bit
shifted out is set. -/
def crcShift (a : Half) : Half :=
  if a.getLsbD 0 then (a >>> 1) ^^^ 0xA001#16 else a >>> 1

/-- `crcShift` repeated `n` times. -/
def crcShifts : Nat → Half → Half
  | 0, a => a
  | n + 1, a => crcShifts n (crcShift a)

/-- `crcStep` (R110): fold one byte into the accumulator. -/
def crcStep (acc : Half) (b : Byte) : Half :=
  crcShifts 8 (acc ^^^ b.setWidth 16)

/-- `crc16` (R111): fold the bytes, first byte first, from 0xFFFF. -/
def crc16 (s : Frame) : Half :=
  s.foldl crcStep 0xFFFF#16

/-- The trailer of a frame with this CRC: low byte first (R113). -/
def crcTrailer (c : Half) : Frame :=
  [loByte c, hiByte c]

/-- `appendCRC` (R113). -/
def appendCRC (body : Frame) : Frame :=
  body ++ crcTrailer (crc16 body)

/-- `checkCRC` (R114), for a frame of at least two bytes. -/
def checkCRC (f : Frame) : Bool :=
  crc16 (f.take (f.length - 2)) ==
    ((f.getD (f.length - 2) 0#8).setWidth 16 ||| (f.getD (f.length - 1) 0#8).setWidth 16 <<< 8)

end Sys2Proof.Machine
end

