-- ==== Sys2Proof/Machine/Operands.lean ====
section
/-! DEFINITION. The operand forms: Q24.8 arguments, rounded and clamped to a byte
(42_frame_builder.md R125–R127). The byte operand of CRC_BYTE is taken by the decoder. -/

namespace Sys2Proof.Machine

/-- `roundQ` (R125): the Q24.8 argument rounded to the nearest integer, ties by `ROUND_TIE`. The
divisor 256 is positive, so `/` is the floor and `r` is the fraction in 1/256ths. -/
def roundQ (tie : RoundTie) (v : Word) : Int :=
  let x := v.toInt
  let q := x / 256
  let r := x - 256 * q
  if r < 128 then q
  else if r > 128 then q + 1
  else
    match tie with
    | .halfEven => if q % 2 = 0 then q else q + 1
    | .halfAway => if x ≥ 0 then q + 1 else q

/-- `clamp8` (R126). -/
def clamp8 (n : Int) : Byte :=
  if n < 0 then 0x00#8
  else if n > 255 then 0xFF#8
  else BitVec.ofInt 8 n

/-- `clampRound` (R127): round first, clamp second. -/
def clampRound (tie : RoundTie) (v : Word) : Byte :=
  clamp8 (roundQ tie v)

end Sys2Proof.Machine
end

