-- ==== Sys2Proof/Machine/Frames.lean ====
section
/-! DEFINITION. The frame builder (42_frame_builder.md R128–R132), the frame parser (43_frame_parser.md
R145–R148), both pure, and the device registers a frame names (20_memory.md R51, R55). -/

namespace Sys2Proof.Machine

/-- The header of every write request (R81, R128). -/
def writeHeader : Frame :=
  [devId, fcWrite, hiByte reqAddr, loByte reqAddr, hiByte regCount, loByte regCount, byteCount]

/-- `buildWriteReq` (R128). -/
def buildWriteReq (payload : Frame) : Frame :=
  appendCRC (writeHeader ++ payload)

/-- `buildClearRequest` (R129). -/
def buildClearRequest : Frame :=
  buildWriteReq [0x00#8, 0x00#8, 0x00#8, 0x00#8, 0x00#8, 0x00#8]

/-- `buildActivateRequest` (R130). -/
def buildActivateRequest : Frame :=
  buildWriteReq [actBit, 0x00#8, 0x00#8, 0x00#8, 0x00#8, 0x00#8]

/-- The motion frame of three bytes already conditioned: position, speed, force (R85). -/
def buildMotionBytes (p v f : Byte) : Frame :=
  buildWriteReq [motionAction, 0x00#8, 0x00#8, p, v, f]

/-- `buildMotionRequest` (R131). -/
def buildMotionRequest (tie : RoundTie) (a0 a1 a2 : Word) : Frame :=
  buildMotionBytes (clampRound tie a0) (clampRound tie a1) (clampRound tie a2)

/-- `buildStatusReadRequest` (R132). -/
def buildStatusReadRequest (statusAddr : Half) : Frame :=
  appendCRC [devId, fcRead, hiByte statusAddr, loByte statusAddr, hiByte regCount, loByte regCount]

/-- The value MOTION_ENC takes from a motion frame: force, speed, position
(45_session_commands.md R196). -/
def motionBytes (f : Frame) : BitVec 24 :=
  f.getD 12 0#8 ++ f.getD 11 0#8 ++ f.getD 10 0#8

/-- `validate` (R145): length first, then CRC. -/
def validate (r : Frame) (n : Nat) : Except FaultCode Unit :=
  if r.length < n then .error .commTimeout
  else if checkCRC r then .ok ()
  else .error .checksumMismatch

/-- `parseWriteAck` (R146). -/
def parseWriteAck (r : Frame) : Except FaultCode Unit :=
  validate r ackLen

/-- `parseActivationAck` (R147): the high nibble of the status byte. -/
def parseActivationAck (r : Frame) : Except FaultCode Bool :=
  match validate r statusLen with
  | .error c => .error c
  | .ok () => .ok ((r.getD staOff 0#8).extractLsb' 4 4 == ackNibble)

/-- What `parseStatus` decodes. -/
structure StatusValue where
  pos : Byte
  cur : BitVec 12
  sta : Byte
deriving DecidableEq, Repr

/-- `parseStatus` (R148): position, current times 10, status byte. -/
def parseStatus (r : Frame) : Except FaultCode StatusValue :=
  match validate r statusLen with
  | .error c => .error c
  | .ok () => .ok ⟨r.getD posOff 0#8, (r.getD curOff 0#8).setWidth 12 * curScale, r.getD staOff 0#8⟩

/-- The device registers a write request names, each with the value its two payload bytes pack to, high
byte first (R51, R55). Descriptive: the block builds bytes, never register values. -/
def registerWrites (f : Frame) : List (Half × Half) :=
  let base : Half := f.getD 2 0#8 ++ f.getD 3 0#8
  [(base, f.getD 7 0#8 ++ f.getD 8 0#8), (base + 1#16, f.getD 9 0#8 ++ f.getD 10 0#8),
    (base + 2#16, f.getD 11 0#8 ++ f.getD 12 0#8)]

/-- The device registers a status read names (R51). -/
def registerReads (f : Frame) : List Half :=
  let base : Half := f.getD 2 0#8 ++ f.getD 3 0#8
  [base, base + 1#16, base + 2#16]

end Sys2Proof.Machine
end

