-- ==== Sys2Proof/Machine/Ops.lean ====
section
/-! DEFINITION. The named operations every meaning is built from: moving the control point, `respond` and
`raise Fault` (45_session_commands.md R192, 60_exceptions.md R233), the completion step, the waits, the
transport primitives (20_memory.md R56–R60), acceptance (R190), and the moves of the other agents. -/

namespace Sys2Proof.Machine

/-- `phase <- p` (00_scope.md section 4, "Control"). -/
def goTo (p : Phase) (s : State) : State :=
  { s with ctl := { s.ctl with phase := p } }

/-- ACT_STATE <- a. -/
def setAct (a : ActState) (s : State) : State :=
  { s with regs := { s.regs with actState := a } }

/-- `wait(d)` (00_scope.md section 4, "Time"). -/
def waitTicks (d : Nat) (s : State) : State :=
  { s with ctl := { s.ctl with now := s.ctl.now + d } }

/-! ### Ending a command -/

/-- `respond` up to the completion step: the arguments are kept and DONE is next (R192; log 2). -/
def respond (r : Resp) (s : State) : State :=
  { s with ctl := { s.ctl with resp := r, phase := .done } }

/-- A response without data. -/
def Resp.plain (c : FaultCode) (op : Byte) : Resp :=
  ⟨c, 0#8, 0#12, 0#8, 0#16, op⟩

/-- `raise Fault(c)` (60_exceptions.md R233): `respond(c, ACT_STATE, 0, 0, 0, 0, LATCH_OP)`. What ran
before it is kept, and no later line runs. This is all there is of taking an exception: no vector, no
saved state, no mode (R236). -/
def raiseFault (c : FaultCode) (s : State) : State :=
  respond (Resp.plain c s.latch.op) s

/-- The completion step (R192): deliver the response word to REQUESTER, write LAST_FAULT and FAULT_LOG,
clear BUSY, return to IDLE. It is also the only return from a fault (60_exceptions.md R237). REQUESTER keeps
its value (log 13). -/
def complete (s : State) : State :=
  { s with
    regs := { s.regs with
      lastFault := s.ctl.resp.fault
      faultLog := logFault s.ctl.resp.fault s.regs.faultLog
      busy := false }
    ctl := { s.ctl with phase := .idle }
    hosts := { s.hosts with
      responses := s.hosts.responses ++ [(s.ctl.requester, responseWord s.regs.actState s.ctl.resp)] } }

/-! ### The transport primitives -/

/-- The transport's choice for the transaction at hand: the next of the list, else a free value
(92_eei_decisions.md D41; log 4). -/
def Link.draw (l : Link) : Draw :=
  match l.oracle with
  | [] => Config.freeDraw l.draws
  | d :: _ => d

/-- The link after a transaction: the choice is used, `pending` is what the transaction leaves, and the
transport has seen `e`. -/
def Link.transact (l : Link) (pending : List Byte) (e : TransportEvent) : Link :=
  { pending := pending, oracle := l.oracle.tail, draws := l.draws + 1, trace := l.trace ++ [e] }

/-- `TxWrite(f)` (R56). Bytes may arrive while it runs. -/
def txWrite (f : Frame) (s : State) : State :=
  { s with
    ctl := { s.ctl with txBuf := f, now := s.ctl.now + s.link.draw.dur }
    link := s.link.transact (s.link.pending ++ s.link.draw.arrive) (.wrote f s.ctl.now) }

/-- The bytes an `RxRead` can return: those pending, then those that arrive while it runs (R57, R72). -/
def Link.pool (l : Link) : List Byte :=
  l.pending ++ l.draw.arrive

/-- What an `RxRead(n)` returns: at most `n` bytes, as many as the transport chooses, in arrival order
(R57; log 4). -/
def Link.readBytes (l : Link) (n : Nat) : Frame :=
  l.pool.take (min n l.draw.count)

/-- The state after an `RxRead(n)` that returned `r` (R57, R36). -/
def rxReadReturns (n : Nat) (r : Frame) (s : State) : State :=
  { s with
    ctl := { s.ctl with
      rxBuf := r
      rxLen := BitVec.ofNat 4 r.length
      now := s.ctl.now + s.link.draw.dur }
    link := s.link.transact (s.link.pool.drop r.length) (.read n r s.ctl.now) }

/-- The core step made of `RxRead(n)` and what follows it. If the read never returns, the core is stuck
in the step: nothing changes (70_reset_and_hazards.md R268; log 9). -/
def rxReadThen (n : Nat) (k : Frame → State → State) (s : State) : State :=
  if s.link.draw.hang then s
  else k (s.link.readBytes n) (rxReadReturns n (s.link.readBytes n) s)

/-- `RxDiscard()` (R58): every pending byte goes, in 0 ticks. The transport chooses nothing. -/
def rxDiscard (s : State) : State :=
  { s with link := { s.link with
      pending := []
      trace := s.link.trace ++ [.discarded s.ctl.now] } }

/-- The state after a `TOpen()` (R59); its result is `s.link.draw.ok`. After a success the pending bytes
are any list: the draw's. -/
def tOpen (s : State) : State :=
  { s with
    ctl := { s.ctl with now := s.ctl.now + s.link.draw.dur }
    link := s.link.transact (if s.link.draw.ok then s.link.draw.arrive else s.link.pending)
      (.opened s.link.draw.ok s.ctl.now) }

/-- `TClose()` (R60). -/
def tClose (s : State) : State :=
  { s with
    ctl := { s.ctl with now := s.ctl.now + s.link.draw.dur }
    link := s.link.transact s.link.pending (.closed s.ctl.now) }

/-- Start or end a session: SESSION_OPEN <- b, ACT_STATE <- Reset (R194, R195). -/
def setSession (b : Bool) (s : State) : State :=
  { s with regs := { s.regs with sessionOpen := b, actState := .reset } }

/-! ### Acceptance and the other agents -/

/-- Acceptance of the request word `w` of host `h` (R190). -/
def accept (h : HostId) (w : BitVec 128) (s : State) : State :=
  { s with
    regs := { s.regs with busy := true, lastOp := (Request.ofWord w).op }
    latch := Request.ofWord w
    ctl := { s.ctl with requester := some h, phase := .exec } }

/-- The arbiter's choice among the held requests: the next of the list, else a free value (R67; log 10). -/
def Hosts.pick (x : Hosts) : Nat :=
  match x.picks with
  | [] => Config.freePick x.arbitrations
  | k :: _ => k

/-- The step of the idle core: accept one of the held requests, any one of them (R67, R190); without one
the core waits (R30). -/
def acceptNext (s : State) : State :=
  match s.hosts.held[s.hosts.pick % s.hosts.held.length]? with
  | none => s
  | some (h, w) =>
    accept h w { s with hosts := { s.hosts with
      held := s.hosts.held.eraseIdx (s.hosts.pick % s.hosts.held.length)
      picks := s.hosts.picks.tail
      arbitrations := s.hosts.arbitrations + 1 } }

/-- Put a host's request among the held ones, by rising host. A host has at most one (10_state.md R39):
a second one of the same host changes nothing (log 10). -/
def holdRequest (h : HostId) (w : BitVec 128) : List (HostId × BitVec 128) → List (HostId × BitVec 128)
  | [] => [(h, w)]
  | (h', w') :: rest =>
    if h < h' then (h, w) :: (h', w') :: rest
    else if h = h' then (h', w') :: rest
    else (h', w') :: holdRequest h w rest

/-- Host `h` presents `w` (R190): it is held until the core accepts it. -/
def presentRequest (h : HostId) (w : BitVec 128) (s : State) : State :=
  { s with hosts := { s.hosts with held := holdRequest h w s.hosts.held } }

/-- Host `h` reads the status bank (R52, R53). An access that is not 32 bits wide is refused: no value
(R61; log 11). -/
def readBank (h : HostId) (idx : BitVec 4) (width : Nat) (s : State) : State :=
  { s with hosts := { s.hosts with
      bankReplies := s.hosts.bankReplies ++
        [⟨h, idx, if width = 32 then some (bankWord s.regs idx) else none⟩] } }

/-- Bytes of the device arrive at the transport (10_state.md R37). -/
def arriveBytes (bs : List Byte) (s : State) : State :=
  { s with link := { s.link with pending := s.link.pending ++ bs } }

/-- The frame the core writes in its next step, where that step is a `TxWrite`. -/
def frameInProgress (s : State) : Option Frame :=
  match s.ctl.phase with
  | .aClr => some buildClearRequest
  | .aAct => some buildActivateRequest
  | .aPtx => some (buildStatusReadRequest s.params.statusAddr)
  | .xTx => some (if s.latch.op = 0x04#8 then s.ctl.txBuf else buildStatusReadRequest s.params.statusAddr)
  | _ => none

/-- What the transport sees of a reset: the part already sent of a frame being written (R262), and one
`TClose` if a session was open (R261). -/
def resetTrace (sent : Nat) (s : State) : List TransportEvent :=
  (match frameInProgress s with
    | some f => if sent = 0 then [] else [.cut (f.take sent) s.ctl.now]
    | none => []) ++
  (if s.regs.sessionOpen then [.closed s.ctl.now] else [])

/-- The reset input (R260–R262): the block's state is that of reset, the running command and the held
requests are dropped without a response. The parameters stay (R265), and so do the records of what the
outside has seen (log 12). -/
def resetInput (sent : Nat) (s : State) : State where
  params := s.params
  regs := Regs.reset
  latch := Request.reset
  ctl := Ctl.reset
  link := { s.link with trace := s.link.trace ++ resetTrace sent s }
  hosts := { s.hosts with held := [] }

end Sys2Proof.Machine
end

