-- ==== Sys2Proof/Machine/CrcCommands.lean ====
section
/-! DEFINITION. CRC_INIT and CRC_BYTE (41_crc_codec.md R115, R116). -/

namespace Sys2Proof.Machine

/-- CRC_ACC <- c, then `respond` with it. -/
def respondCrc (c : Half) (op : Byte) (s : State) : State :=
  respond ⟨.none, 0#8, 0#12, 0#8, c, op⟩ { s with regs := { s.regs with crcAcc := c } }

/-- CRC_INIT (R115). -/
def execCrcInit (s : State) : Host.Outcome State Fault Refusal :=
  match s.ctl.phase with
  | .exec => .next (respondCrc 0xFFFF#16 0x10#8 s)
  | .done => .next (complete s)
  | _ => .fault .noSuchStep

/-- CRC_BYTE (R116). -/
def execCrcByte (b : Byte) (s : State) : Host.Outcome State Fault Refusal :=
  match s.ctl.phase with
  | .exec => .next (respondCrc (crcStep s.regs.crcAcc b) 0x11#8 s)
  | .done => .next (complete s)
  | _ => .fault .noSuchStep

end Sys2Proof.Machine
end

