-- ==== Sys2Proof/Machine/Session.lean ====
section
/-! DEFINITION. OPEN and CLOSE (45_session_commands.md R194, R195). -/

namespace Sys2Proof.Machine

/-- OPEN at EXEC: nothing to do in an open session. -/
def openCheck (s : State) : State :=
  if s.regs.sessionOpen then respond (Resp.plain .none 0x01#8) s else goTo .oOpen s

/-- OPEN at O_OPEN: `TOpen`, and the session if it succeeds. -/
def openTransport (s : State) : State :=
  if s.link.draw.ok then respond (Resp.plain .none 0x01#8) (setSession true (tOpen s))
  else raiseFault .connectionFault (tOpen s)

/-- OPEN (R194). -/
def execOpen (s : State) : Host.Outcome State Fault Refusal :=
  match s.ctl.phase with
  | .exec => .next (openCheck s)
  | .oOpen => .next (openTransport s)
  | .done => .next (complete s)
  | _ => .fault .noSuchStep

/-- CLOSE at EXEC: nothing to do without a session. -/
def closeCheck (s : State) : State :=
  if s.regs.sessionOpen then goTo .oClose s else respond (Resp.plain .none 0x02#8) s

/-- CLOSE at O_CLOSE: `TClose`, and the session ends. -/
def closeTransport (s : State) : State :=
  respond (Resp.plain .none 0x02#8) (setSession false (tClose s))

/-- CLOSE (R195). -/
def execClose (s : State) : Host.Outcome State Fault Refusal :=
  match s.ctl.phase with
  | .exec => .next (closeCheck s)
  | .oClose => .next (closeTransport s)
  | .done => .next (complete s)
  | _ => .fault .noSuchStep

end Sys2Proof.Machine
end

