-- ==== Sys2Proof/Machine/Activation.lean ====
section
/-! DEFINITION. ACTIVATE, the activation sequencer (44_activation_sequencer.md R165–R183). -/

namespace Sys2Proof.Machine

/-- EXEC (R166): Reset, then Activating, in one step. -/
def startActivation (s : State) : State :=
  if s.regs.sessionOpen = false then raiseFault .sessionClosed s
  else goTo .aClr (setAct .activating (setAct .reset s))

/-- A_CLR (R166, R167): the deadline is taken before the write begins. -/
def sendClear (s : State) : State :=
  goTo .aSet1 (txWrite buildClearRequest
    { s with ctl := { s.ctl with deadline := s.ctl.now + s.params.tActTimeout } })

/-- A_ACT (R169). -/
def sendActivate (s : State) : State :=
  goTo .aSet2 (txWrite buildActivateRequest s)

/-- A_PTX (R172), for the status-read frame `f`. -/
def sendPoll (f : Frame) (s : State) : State :=
  goTo .aPrx (txWrite f s)

/-- TIMEOUT (R175, R177): part of the step that reaches it (log 20). -/
def timeOut (s : State) : State :=
  raiseFault .activationTimedOut (setAct .timedOut s)

/-- A_PRX after its `RxRead` returned `r` (R173–R175): success is tested before the deadline, and a
short or corrupt response is a failed poll, not a fault (R178). -/
def onPoll (r : Frame) (s : State) : State :=
  if parseActivationAck r = .ok true then
    respond (Resp.plain .none 0x03#8) (setAct .activated s)
  else if s.ctl.now ≥ s.ctl.deadline then timeOut s
  else goTo .aPwait s

/-- The ticks of the poll wait: `min(T_POLL, DEADLINE - now)` (R176). -/
def pollWait (s : State) : Nat :=
  min s.params.tPoll (s.ctl.deadline - s.ctl.now)

/-- A_PWAIT after its wait (R177). -/
def afterPollWait (s : State) : State :=
  if s.ctl.now ≥ s.ctl.deadline then timeOut s else goTo .aPtx s

/-- ACTIVATE (R183). -/
def execActivate (s : State) : Host.Outcome State Fault Refusal :=
  match s.ctl.phase with
  | .exec => .next (startActivation s)
  | .aClr => .next (sendClear s)
  | .aSet1 => .next (goTo .aAct (waitTicks s.params.tSettle s))
  | .aAct => .next (sendActivate s)
  | .aSet2 => .next (goTo .aDisc (waitTicks s.params.tSettle s))
  | .aDisc => .next (goTo .aPtx (rxDiscard s))
  | .aPtx => .next (sendPoll (buildStatusReadRequest s.params.statusAddr) s)
  | .aPrx => .next (rxReadThen statusLen onPoll s)
  | .aPwait => .next (afterPollWait (waitTicks (pollWait s) s))
  | .done => .next (complete s)
  | _ => .fault .noSuchStep

end Sys2Proof.Machine
end

