-- ==== Sys2Proof/Machine/Motion.lean ====
section
/-! DEFINITION. SET_POSITION (45_session_commands.md R196), and the checks the motion and status commands
share (60_exceptions.md R234). -/

namespace Sys2Proof.Machine

/-- The checks of the motion and status commands, before any byte is sent (R234): SESSION_CLOSED, then
NOT_ACTIVATED. -/
def ifActivated (k : State → State) (s : State) : State :=
  if s.regs.sessionOpen = false then raiseFault .sessionClosed s
  else if s.regs.actState ≠ .activated then raiseFault .notActivated s
  else k s

/-- SET_POSITION builds the motion frame: into TXBUF for the write that follows, and its three bytes into
MOTION_ENC (log 19). -/
def buildMotion (a0 a1 a2 : Word) (s : State) : State :=
  { s with
    regs := { s.regs with motionEnc := motionBytes (buildMotionRequest s.params.roundTie a0 a1 a2) }
    ctl := { s.ctl with txBuf := buildMotionRequest s.params.roundTie a0 a1 a2 } }

/-- SET_POSITION after its `RxRead` returned `r`: the acknowledgement is checked. -/
def onWriteAck (r : Frame) (s : State) : State :=
  match parseWriteAck r with
  | .error c => raiseFault c s
  | .ok () => respond (Resp.plain .none 0x04#8) s

/-- SET_POSITION (R196). -/
def execSetPosition (a0 a1 a2 : Word) (s : State) : Host.Outcome State Fault Refusal :=
  match s.ctl.phase with
  | .exec => .next (ifActivated (fun s => goTo .xTx (buildMotion a0 a1 a2 s)) s)
  | .xTx => .next (goTo .xRx (txWrite s.ctl.txBuf s))
  | .xRx => .next (rxReadThen ackLen onWriteAck s)
  | .done => .next (complete s)
  | _ => .fault .noSuchStep

end Sys2Proof.Machine
end

