-- ==== Sys2Proof/Machine/Status.lean ====
section
/-! DEFINITION. GET_POSITION, GET_CURRENT and GET_STATUS (45_session_commands.md R197–R199): one status
exchange each, told apart by what they keep of the response. -/

namespace Sys2Proof.Machine

/-- A status command after its `RxRead` returned `r`: nothing is kept of a response that does not
validate (R202). -/
def onStatus (keep : StatusValue → State → State) (r : Frame) (s : State) : State :=
  match parseStatus r with
  | .error c => raiseFault c s
  | .ok v => keep v s

/-- What GET_POSITION keeps (R197). -/
def keepPosition (v : StatusValue) (s : State) : State :=
  respond ⟨.none, v.pos, 0#12, 0#8, 0#16, 0x05#8⟩ { s with regs := { s.regs with lastPos := v.pos } }

/-- What GET_CURRENT keeps (R198). -/
def keepCurrent (v : StatusValue) (s : State) : State :=
  respond ⟨.none, 0#8, v.cur, 0#8, 0#16, 0x06#8⟩ { s with regs := { s.regs with lastCur := v.cur } }

/-- What GET_STATUS keeps (R199). -/
def keepStatus (v : StatusValue) (s : State) : State :=
  respond ⟨.none, v.pos, v.cur, v.sta, 0#16, 0x07#8⟩
    { s with regs := { s.regs with lastPos := v.pos, lastCur := v.cur, lastSta := v.sta } }

/-- The steps of a status command, given what it keeps. -/
def statusExchange (keep : StatusValue → State → State) (s : State) : Host.Outcome State Fault Refusal :=
  match s.ctl.phase with
  | .exec => .next (ifActivated (goTo .xTx) s)
  | .xTx => .next (goTo .xRx (txWrite (buildStatusReadRequest s.params.statusAddr) s))
  | .xRx => .next (rxReadThen statusLen (onStatus keep) s)
  | .done => .next (complete s)
  | _ => .fault .noSuchStep

/-- GET_POSITION (R197). -/
def execGetPosition (s : State) : Host.Outcome State Fault Refusal :=
  statusExchange keepPosition s

/-- GET_CURRENT (R198). -/
def execGetCurrent (s : State) : Host.Outcome State Fault Refusal :=
  statusExchange keepCurrent s

/-- GET_STATUS (R199). -/
def execGetStatus (s : State) : Host.Outcome State Fault Refusal :=
  statusExchange keepStatus s

end Sys2Proof.Machine
end

