-- ==== Sys2Proof/Machine/WireFrames.lean ====
section
/-! DEFINITION. The wire frames of spec/opcode_table.json. The meaning of a frame is the core step that
sends it (R167, R169, R172, R196, R197) or that receives it (R173, R196–R199): the step of the running
command at `s.ctl.phase`, with the frame's own bytes. Elsewhere the block neither sends nor receives the
frame (R88, R133). Log 16. -/

namespace Sys2Proof.Machine

/-- FRAME_CLEAR (R129): sent at A_CLR. -/
def execFrameClear (s : State) : Host.Outcome State Fault Refusal :=
  match s.ctl.phase with
  | .aClr => .next (sendClear s)
  | _ => .fault .frameOutOfPlace

/-- FRAME_ACTIVATE (R130): sent at A_ACT. -/
def execFrameActivate (s : State) : Host.Outcome State Fault Refusal :=
  match s.ctl.phase with
  | .aAct => .next (sendActivate s)
  | _ => .fault .frameOutOfPlace

/-- The bytes of a motion frame with these operands (R85). -/
def motionFrame (p v f : Byte) (crc : Half) : Frame :=
  writeHeader ++ [motionAction, 0x00#8, 0x00#8, p, v, f] ++ crcTrailer crc

/-- FRAME_MOTION (R131): sent at X_TX of SET_POSITION. -/
def execFrameMotion (p v f : Byte) (crc : Half) (s : State) : Host.Outcome State Fault Refusal :=
  match s.ctl.phase with
  | .xTx =>
    if s.latch.op = 0x04#8 then .next (goTo .xRx (txWrite (motionFrame p v f crc) s))
    else .fault .frameOutOfPlace
  | _ => .fault .frameOutOfPlace

/-- The bytes of a status-read frame with these operands (R82). -/
def statusReadFrame (addr crc : Half) : Frame :=
  [devId, fcRead, hiByte addr, loByte addr, hiByte regCount, loByte regCount] ++ crcTrailer crc

/-- What the running status command keeps of a response, by its opcode (R197–R199). -/
def keepOf (op : Byte) : Option (StatusValue → State → State) :=
  if op = 0x05#8 then some keepPosition
  else if op = 0x06#8 then some keepCurrent
  else if op = 0x07#8 then some keepStatus
  else none

/-- FRAME_STATUS_READ (R132): sent at A_PTX, and at X_TX of the status commands. -/
def execFrameStatusRead (addr crc : Half) (s : State) : Host.Outcome State Fault Refusal :=
  match s.ctl.phase with
  | .aPtx => .next (sendPoll (statusReadFrame addr crc) s)
  | .xTx =>
    match keepOf s.latch.op with
    | some _ => .next (goTo .xRx (txWrite (statusReadFrame addr crc) s))
    | none => .fault .frameOutOfPlace
  | _ => .fault .frameOutOfPlace

/-- FRAME_WRITE_ACK (R146): received at X_RX of SET_POSITION. -/
def execFrameWriteAck (bytes : Frame) (s : State) : Host.Outcome State Fault Refusal :=
  match s.ctl.phase with
  | .xRx =>
    if s.latch.op = 0x04#8 then .next (onWriteAck bytes (rxReadReturns ackLen bytes s))
    else .fault .frameOutOfPlace
  | _ => .fault .frameOutOfPlace

/-- FRAME_STATUS_RESPONSE (R147, R148): received at A_PRX, and at X_RX of the status commands. -/
def execFrameStatusResponse (bytes : Frame) (s : State) : Host.Outcome State Fault Refusal :=
  match s.ctl.phase with
  | .aPrx => .next (onPoll bytes (rxReadReturns statusLen bytes s))
  | .xRx =>
    match keepOf s.latch.op with
    | some keep => .next (onStatus keep bytes (rxReadReturns statusLen bytes s))
    | none => .fault .frameOutOfPlace
  | _ => .fault .frameOutOfPlace

end Sys2Proof.Machine
end

