-- ==== Sys2Proof/Machine/Dispatch.lean ====
section
/-! DEFINITION. One arm per constructor of Instr: the one core step of the instruction at the control
point `s.ctl.phase`. -/

namespace Sys2Proof.Machine

def exec (i : Instr) (s : State) : Host.Outcome State Fault Refusal :=
  match i with
  | .openCmd => Sys2Proof.Machine.execOpen s
  | .closeCmd => Sys2Proof.Machine.execClose s
  | .activate => Sys2Proof.Machine.execActivate s
  | .setPosition a0 a1 a2 => Sys2Proof.Machine.execSetPosition a0 a1 a2 s
  | .getPosition => Sys2Proof.Machine.execGetPosition s
  | .getCurrent => Sys2Proof.Machine.execGetCurrent s
  | .getStatus => Sys2Proof.Machine.execGetStatus s
  | .crcInit => Sys2Proof.Machine.execCrcInit s
  | .crcByte b => Sys2Proof.Machine.execCrcByte b s
  | .frameClear => Sys2Proof.Machine.execFrameClear s
  | .frameActivate => Sys2Proof.Machine.execFrameActivate s
  | .frameMotion p v f crc => Sys2Proof.Machine.execFrameMotion p v f crc s
  | .frameStatusRead addr crc => Sys2Proof.Machine.execFrameStatusRead addr crc s
  | .frameWriteAck bytes => Sys2Proof.Machine.execFrameWriteAck bytes s
  | .frameStatusResponse bytes => Sys2Proof.Machine.execFrameStatusResponse bytes s

end Sys2Proof.Machine
end

