-- ==== Sys2Proof/Machine/CoreStep.lean ====
section
/-! DEFINITION. One step of the core (45_session_commands.md R191), one move of another agent, and how an
instruction is placed so that the next step runs it. -/

namespace Sys2Proof.Machine

/-- The steps of a request that is no command (R193, R205): EXEC raises ILLEGAL_COMMAND, DONE completes. -/
def runIllegal (s : State) : Host.Outcome State Fault Refusal :=
  match s.ctl.phase with
  | .exec => .next (raiseFault .illegalCommand s)
  | .done => .next (complete s)
  | _ => .fault .noSuchStep

/-- One step of the core: accept a request when idle, else the step of the latched request's command. -/
def coreStep (s : State) : Host.Outcome State Fault Refusal :=
  if s.ctl.phase = .idle then .next (acceptNext s)
  else
    match decodeRequest s.latch with
    | .ok i => exec i s
    | .error _ => runIllegal s

/-- One input: a move of another agent, or the core's next step. -/
def agentStep (e : Event) (s : State) : Host.Outcome State Fault Refusal :=
  match e with
  | .core => coreStep s
  | .present h w => .next (presentRequest h w s)
  | .bankRead h idx width => .next (readBank h idx width s)
  | .arrive bs => .next (arriveBytes bs s)
  | .reset sent => .next (resetInput sent s)

/-- The state with these inputs to come. -/
def State.withInputs (es : List Event) (s : State) : State :=
  { s with hosts := { s.hosts with inputs := es } }

/-- The command with opcode `op` and no arguments is running, and `p` is its next step. -/
def placeAt (op : Byte) (p : Phase) (s : State) : State :=
  { s with
    regs := { s.regs with busy := true, lastOp := op }
    latch := ⟨op, 0#24, 0#32, 0#32, 0#32⟩
    ctl := { s.ctl with requester := some 0, phase := p } }

/-- The transport's next read returns exactly `bytes`. -/
def placeReceived (bytes : Frame) (s : State) : State :=
  { s with link := { s.link with
      pending := []
      oracle := { arrive := bytes, count := bytes.length } :: s.link.oracle } }

/-- The running command's next step transmits `f`. -/
def placeSent (f : Frame) (s : State) : State :=
  match decodeSent f with
  | .ok .frameClear => placeAt 0x03#8 .aClr s
  | .ok .frameActivate => placeAt 0x03#8 .aAct s
  | .ok (.frameStatusRead addr _) =>
    placeAt 0x07#8 .xTx { s with params := { s.params with statusAddr := addr } }
  | _ => placeAt 0x04#8 .xTx { s with ctl := { s.ctl with txBuf := f } }

/-- Place an encoded instruction so that the very next step of the core runs it: a request word as just
accepted from host 0 (R190), a frame as the one the running command sends or receives next. Log 1. -/
def place (e : Encoding) (s : State) : State :=
  match e with
  | .request w => accept 0 w s
  | .sent f => placeSent f s
  | .received f =>
    if f.length = ackLen then placeReceived f (placeAt 0x04#8 .xRx s)
    else placeReceived f (placeAt 0x07#8 .xRx s)

end Sys2Proof.Machine
end

