-- ==== Sys2Proof/Machine/Step.lean ====
section
/-! DEFINITION. The step of the machine: the next input, or a step of the core when no input is listed. -/

namespace Sys2Proof.Machine

/-- One step. The inputs say which agent moves next (45_session_commands.md R191; log 8). -/
def step (s : State) : Host.Outcome State Fault Refusal :=
  match s.hosts.inputs with
  | [] => coreStep s
  | e :: es => agentStep e (s.withInputs es)

/-- The state whose next step runs the instruction of an opcode-table row. -/
def State.withFetchWord (s : State) (nbits w : Nat) : State :=
  (place (tableEncoding nbits w) s).withInputs (.core :: s.hosts.inputs)

end Sys2Proof.Machine
end

