-- ==== Sys2Proof/Machine/Assembler.lean ====
section
/-! DEFINITION. Host programs (30_encoding.md R90, R91): the lines, the pseudo-instructions, and the
inputs a line of host `h` stands for. Their text is read in ProgramText.lean. -/

namespace Sys2Proof.Machine

/-- A decimal literal with a sign and a fraction: `mantissa / 10 ^ places` (R90). -/
structure Decimal where
  mantissa : Int
  places : Nat
deriving DecidableEq, Repr

/-- A line of a host program (R90) or a pseudo-instruction (R91). -/
inductive HostLine where
  | openLine
  | closeLine
  | activate
  | getPosition
  | getCurrent
  | getStatus
  | crcInit
  | setPosition (p v f : Decimal)
  | crcByte (b : Int)
  | read (idx : BitVec 4)
  | word (w : BitVec 128)
  | crcBytes (bs : List Int)
  | start
  | restart
  | setpos (p v f : Decimal)
deriving DecidableEq, Repr

/-- The expansion of the pseudo-instructions (R91); a plain line expands to itself. -/
def HostLine.expand : HostLine → List HostLine
  | .crcBytes bs => .crcInit :: bs.map .crcByte
  | .start => [.openLine, .activate]
  | .restart => [.closeLine, .openLine, .activate]
  | .setpos p v f => [.setPosition p v f]
  | l => [l]

/-- The argument word of a decimal literal: `x * 256` as a 32-bit two's-complement word. The assembler
refuses a literal whose `x * 256` is no integer of that range (R90). -/
def Decimal.toWord (d : Decimal) : Option Word :=
  let scaled := d.mantissa * 256
  let unit : Int := 10 ^ d.places
  if scaled % unit = 0 ∧ -2 ^ 31 ≤ scaled / unit ∧ scaled / unit ≤ 2 ^ 31 - 1 then
    some (BitVec.ofInt 32 (scaled / unit))
  else none

/-- The request word of a command. -/
def requestWord (i : Instr) : Option (BitVec 128) :=
  match encode i with
  | .request w => some w
  | _ => none

/-- The input a plain line stands for: a request presented by `h`, or a 32-bit read of the status bank.
`none`: the assembler refuses the line, or it is a pseudo-instruction. -/
def HostLine.toEvent (h : HostId) : HostLine → Option Event
  | .openLine => (requestWord .openCmd).map (.present h)
  | .closeLine => (requestWord .closeCmd).map (.present h)
  | .activate => (requestWord .activate).map (.present h)
  | .getPosition => (requestWord .getPosition).map (.present h)
  | .getCurrent => (requestWord .getCurrent).map (.present h)
  | .getStatus => (requestWord .getStatus).map (.present h)
  | .crcInit => (requestWord .crcInit).map (.present h)
  | .setPosition p v f =>
    match p.toWord, v.toWord, f.toWord with
    | some a0, some a1, some a2 => (requestWord (.setPosition a0 a1 a2)).map (.present h)
    | _, _, _ => none
  | .crcByte b =>
    if 0 ≤ b ∧ b ≤ 255 then (requestWord (.crcByte (BitVec.ofInt 8 b))).map (.present h) else none
  | .read idx => some (.bankRead h idx 32)
  | .word w => some (.present h w)
  | _ => none

/-- The inputs of one line, pseudo-instructions expanded. -/
def HostLine.assemble (h : HostId) (l : HostLine) : Option (List Event) :=
  l.expand.mapM (HostLine.toEvent h)

end Sys2Proof.Machine
end

