-- ==== Sys2Proof/Safety.lean ====
section
/-! DEFINITION. What a state that a run can reach looks like. `State.Inv` puts together the whole-machine
rules of the spec that hold between any two core steps. -/

namespace Sys2Proof.Machine

/-- The instruction is a command of the command port (30_encoding.md R76), not a wire frame. -/
def isCommand : Instr → Bool
  | .openCmd => true
  | .closeCmd => true
  | .activate => true
  | .setPosition _ _ _ => true
  | .getPosition => true
  | .getCurrent => true
  | .getStatus => true
  | .crcInit => true
  | .crcByte _ => true
  | .frameClear => false
  | .frameActivate => false
  | .frameMotion _ _ _ _ => false
  | .frameStatusRead _ _ => false
  | .frameWriteAck _ => false
  | .frameStatusResponse _ => false

/-- The command is one of the motion and status commands, which need an activated session
(45_session_commands.md R196–R199). -/
def isExchange : Instr → Bool
  | .setPosition _ _ _ => true
  | .getPosition => true
  | .getCurrent => true
  | .getStatus => true
  | .openCmd => false
  | .closeCmd => false
  | .activate => false
  | .crcInit => false
  | .crcByte _ => false
  | .frameClear => false
  | .frameActivate => false
  | .frameMotion _ _ _ _ => false
  | .frameStatusRead _ _ => false
  | .frameWriteAck _ => false
  | .frameStatusResponse _ => false

/-- A next state changed by `f`; a stop stays as it is. -/
def mapNext (f : State → State) : Host.Outcome State Fault Refusal → Host.Outcome State Fault Refusal
  | .next s => .next (f s)
  | .fault r => .fault r
  | .refused r => .refused r

/-- The next input is the reset input. -/
def State.resetNext (s : State) : Bool :=
  match s.hosts.inputs with
  | .reset _ :: _ => true
  | _ => false

/-- The phases of the activation handshake (10_state.md R30). -/
def Phase.inActivation : Phase → Bool
  | .aClr => true
  | .aSet1 => true
  | .aAct => true
  | .aSet2 => true
  | .aDisc => true
  | .aPtx => true
  | .aPrx => true
  | .aPwait => true
  | _ => false

/-- The running request is the command with opcode `op`. -/
def State.runs (op : Byte) (s : State) : Bool :=
  s.latch.rsv == 0#24 && s.latch.op == op

/-- The control point fits the running request, the session and the activation (R24, R183, R194–R199):
a motion or status exchange runs in an activated session, a handshake in an activating one. -/
def State.phaseFits (s : State) : Bool :=
  match s.ctl.phase with
  | .idle => !s.regs.busy
  | .exec => s.regs.busy
  | .done => s.regs.busy
  | .xTx => s.regs.busy && s.regs.sessionOpen && s.regs.actState == .activated &&
      (s.runs 0x04#8 || s.runs 0x05#8 || s.runs 0x06#8 || s.runs 0x07#8)
  | .xRx => s.regs.busy && s.regs.sessionOpen && s.regs.actState == .activated &&
      (s.runs 0x04#8 || s.runs 0x05#8 || s.runs 0x06#8 || s.runs 0x07#8)
  | .oOpen => s.regs.busy && !s.regs.sessionOpen && s.runs 0x01#8
  | .oClose => s.regs.busy && s.regs.sessionOpen && s.runs 0x02#8
  | _ => s.regs.busy && s.regs.sessionOpen && s.regs.actState == .activating && s.runs 0x03#8

/-- ACT_STATE is Activating only inside the handshake (10_state.md R23), and Reset without a session
(92_eei_decisions.md D37). -/
abbrev State.activationFits (s : State) : Prop :=
  (s.regs.actState = .activating → s.ctl.phase.inActivation = true) ∧
  (s.regs.sessionOpen = false → s.regs.actState = .reset)

/-- The fault flags (10_state.md R25, R26): bit 0 of FAULT_LOG is 0, and the last fault is logged. -/
abbrev State.faultsFit (s : State) : Prop :=
  s.regs.faultLog.getLsbD 0 = false ∧
  (s.regs.lastFault ≠ .none → s.regs.faultLog.getLsbD s.regs.lastFault.num = true)

/-- LAST_CUR is one of 0, 10, …, 2550 (10_state.md R29); LAST_OP is the latched opcode (R35); a running
request has a requester (R38). -/
abbrev State.resultsFit (s : State) : Prop :=
  s.regs.lastCur.toNat % 10 = 0 ∧ s.regs.lastCur.toNat ≤ 2550 ∧ s.regs.lastOp = s.latch.op ∧
  (s.regs.busy = true → s.ctl.requester.isSome = true)

/-- The frame buffers (10_state.md R36), and TXBUF and MOTION_ENC between the EXEC and the X_TX step of
SET_POSITION (45_session_commands.md R196). -/
abbrev State.buffersFit (s : State) : Prop :=
  s.ctl.txBuf.length ≤ 15 ∧ s.ctl.rxBuf.length ≤ 11 ∧ s.ctl.rxLen.toNat = s.ctl.rxBuf.length ∧
  (s.ctl.phase = .xTx → s.latch.op = 0x04#8 →
    s.ctl.txBuf = buildMotionRequest s.params.roundTie s.latch.a0 s.latch.a1 s.latch.a2 ∧
    s.regs.motionEnc = motionBytes s.ctl.txBuf)

/-- At most one held request per host (10_state.md R39). -/
abbrev State.heldFits (s : State) : Prop :=
  (s.hosts.held.map Prod.fst).Pairwise (· < ·)

/-- A frame of the builders (42_frame_builder.md R129–R132). -/
def builtFrame (statusAddr : Half) (f : Frame) : Bool :=
  f == buildClearRequest || f == buildActivateRequest || f == buildStatusReadRequest statusAddr ||
    f == buildMotionBytes (f.getD 10 0#8) (f.getD 11 0#8) (f.getD 12 0#8)

/-- Every frame the transport has seen whole came from a builder (42_frame_builder.md R133). -/
def framesBuilt (statusAddr : Half) (trace : List TransportEvent) : Bool :=
  trace.all fun
    | .wrote f _ => builtFrame statusAddr f
    | _ => true

/-- Ownership of the transport after one more event: `none` if a primitive was called without an open
session, or the transport opened twice (20_memory.md R59, R60; 10_state.md R22). -/
def ownershipStep (owned : Option Bool) (e : TransportEvent) : Option Bool :=
  match owned, e with
  | some false, .opened ok _ => some ok
  | some true, .closed _ => some false
  | some true, .wrote _ _ => some true
  | some true, .read _ _ _ => some true
  | some true, .discarded _ => some true
  | some true, .cut _ _ => some true
  | _, _ => none

/-- Whether the block owns the transport after these events. -/
def ownership (trace : List TransportEvent) : Option Bool :=
  trace.foldl ownershipStep (some false)

/-- How long a response the frame just written asks for: 8 bytes after a write request of 15, 11 after
a status read of 8 (20_memory.md R62, 30_encoding.md R88). -/
def responseLength (f : Frame) : Nat :=
  if f.length = 15 then ackLen else statusLen

/-- The read the last event allows, after one more event: a read comes directly after a write, asks for
the response of that frame, and returns no more (20_memory.md R57, R62, R66). The outer `none` is a
violation; the inner one says no read may come now. -/
def exchangeStep (allowed : Option (Option Nat)) (e : TransportEvent) : Option (Option Nat) :=
  match allowed, e with
  | some _, .wrote f _ => some (some (responseLength f))
  | some (some n), .read asked got _ => if asked = n ∧ got.length ≤ n then some none else none
  | some none, .read _ _ _ => none
  | some _, _ => some none
  | none, _ => none

/-- The read that may come after these events. -/
def exchange (trace : List TransportEvent) : Option (Option Nat) :=
  trace.foldl exchangeStep (some none)

/-- What the read of the control point asks for. -/
def State.awaited (s : State) : Option Nat :=
  match s.ctl.phase with
  | .xRx => some (if s.latch.op = 0x04#8 then ackLen else statusLen)
  | .aPrx => some statusLen
  | _ => none

/-- What the transport has seen (20_memory.md R60, R66; 42_frame_builder.md R133): builder frames only,
only in open sessions, each read directly after the write it answers. -/
abbrev State.traceFits (s : State) : Prop :=
  framesBuilt s.params.statusAddr s.link.trace = true ∧
  ownership s.link.trace = some s.regs.sessionOpen ∧
  (exchange s.link.trace).isSome = true ∧
  (s.awaited.isSome = true → exchange s.link.trace = some s.awaited)

/-- The invariant of the machine. -/
abbrev State.Inv (s : State) : Prop :=
  s.phaseFits = true ∧ s.activationFits ∧ s.faultsFit ∧ s.resultsFit ∧ s.buffersFit ∧ s.heldFits ∧
  s.traceFits

end Sys2Proof.Machine
end

