-- ==== Sys2Proof/WellFormed.lean ====
section
/-! DEFINITION. Which terms of `Instr` stand for an instruction of the block: a transmitted frame has
been through `appendCRC` (42_frame_builder.md R133), and a received frame has the length the block asks
for (30_encoding.md R86, R87). A received frame's content is free (R89). -/

namespace Sys2Proof

open Machine

/-- The well-formed instructions. -/
def Instr.wf : Instr → Bool
  | .openCmd => true
  | .closeCmd => true
  | .activate => true
  | .setPosition _ _ _ => true
  | .getPosition => true
  | .getCurrent => true
  | .getStatus => true
  | .crcInit => true
  | .crcByte _ => true
  | .frameClear => true
  | .frameActivate => true
  | .frameMotion p v f crc =>
    crc == crc16 [0x09#8, 0x10#8, 0x03#8, 0xE8#8, 0x00#8, 0x03#8, 0x06#8, 0x09#8, 0x00#8, 0x00#8, p, v, f]
  | .frameStatusRead addr crc =>
    crc == crc16 [0x09#8, 0x03#8, hiByte addr, loByte addr, 0x00#8, 0x03#8]
  | .frameWriteAck bytes => bytes.length == 8
  | .frameStatusResponse bytes => bytes.length == 11

end Sys2Proof
end

