-- ==== Sys2Proof/Certificates/Slice0/Obligations.lean ====
section
/-! DEFINITION. The statements for the provers, in the order of the spec's files: encodings, codec,
operands, frames, commands, wire frames, responses and faults, agents and reset, activation, and the
whole-machine invariant.

Clauses about these parts of the state rest on the model's own choices (notes/assumptions), not on a rule:
`ctl.resp` and the completion step at DONE (logs 2, 3); `link.oracle`, `link.draws` and `draw` (log 4);
`hosts.inputs` (log 8); a stuck read as an unchanged state (log 9); `hosts.picks` and `arbitrations` (log 10);
the refusal of a bank access of another width (log 11); what outlives a reset (log 12), and the buffers after
it (log 6); REQUESTER after a completion (log 13); `link.trace`, `hosts.responses` and `bankReplies` (log 14);
`exec` of a wire frame (log 16); the port of an encoding and the placement of an instruction (logs 1, 17);
TXBUF filled at EXEC of SET_POSITION (log 19); TIMEOUT as part of the step that reaches it (log 20). -/

open Sys2Proof Sys2Proof.Machine

/-! ### Encodings (30_encoding.md) -/

/-- Decoding the encoding of a well-formed instruction gives it back (R75, R76, R81–R87). -/
def Obligations.EveryInstructionRoundTrips : Prop :=
  ∀ i : Instr, i.wf = true → decode (encode i) = .ok i

/-- Words written out from R75–R77 and R82–R87 decode to the instruction they stand for. -/
def Obligations.SpecWordsDecode : Prop :=
  decode (.request 0x00000000_00000000_00000000_00000005#128) = .ok .getPosition ∧
  decode (.request 0x00002000_00004000_00008000_00000004#128) =
    .ok (.setPosition 0x8000#32 0x4000#32 0x2000#32) ∧
  decode (.request 0x00000000_00000000_FFFFFF00_00000011#128) = .ok (.crcByte 0x00#8) ∧
  decode (.request 0x00000000_00000000_00000000_FFFFFF10#128) = .error .reservedNonzero ∧
  decode (.request 0x00000000_00000000_00000000_00000008#128) = .error .reservedOp ∧
  decode (.sent [0x09#8, 0x03#8, 0x07#8, 0xD0#8, 0x00#8, 0x03#8, 0x04#8, 0x0E#8]) =
    .ok (.frameStatusRead 0x07D0#16 0x0E04#16) ∧
  decode (.sent [0x09#8, 0x10#8, 0x03#8, 0xE8#8, 0x00#8, 0x03#8, 0x06#8, 0x09#8, 0x00#8, 0x00#8, 0x80#8,
    0x40#8, 0x20#8, 0x42#8, 0x59#8]) = .ok (.frameMotion 0x80#8 0x40#8 0x20#8 0x5942#16) ∧
  decode (.received [0x09#8, 0x90#8, 0x02#8, 0x4C#8, 0x03#8]) = .error .notAReceivedFrame

/-- A request is no command exactly when RSV is not zero or the OP is reserved: 0x00, 0x08–0x0F and
0x12–0xFF (R77, R78). -/
def Obligations.ReservedRequestsAreNoCommand : Prop :=
  ∀ w : BitVec 128,
    (∃ e, decode (.request w) = .error e) ↔
      (w.extractLsb' 8 24 ≠ 0#24 ∨ w.extractLsb' 0 8 = 0x00#8 ∨
        (0x08#8 ≤ w.extractLsb' 0 8 ∧ w.extractLsb' 0 8 ≤ 0x0F#8) ∨ 0x12#8 ≤ w.extractLsb' 0 8)

/-- The encoding of a well-formed transmitted frame is the output of its builder (R82–R85;
42_frame_builder.md R129–R133). -/
def Obligations.EncodedSentFramesAreBuilt : Prop :=
  encode .frameClear = .sent buildClearRequest ∧
  encode .frameActivate = .sent buildActivateRequest ∧
  (∀ p v f crc, (Instr.frameMotion p v f crc).wf = true →
    encode (.frameMotion p v f crc) = .sent (buildMotionBytes p v f)) ∧
  (∀ addr crc, (Instr.frameStatusRead addr crc).wf = true →
    encode (.frameStatusRead addr crc) = .sent (buildStatusReadRequest addr))

/-! ### CRC codec (41_crc_codec.md) -/

/-- The residue law (R117). -/
def Obligations.AppendedCrcLeavesNoResidue : Prop :=
  ∀ body : Frame, crc16 (appendCRC body) = 0x0000#16 ∧ checkCRC (appendCRC body) = true

/-- A frame of at least two bytes passes exactly when its last two bytes are the CRC of the others, low
byte first (R114). -/
def Obligations.CheckCrcAcceptsExactlyTheTrailer : Prop :=
  ∀ (body : Frame) (lo hi : Byte),
    checkCRC (body ++ [lo, hi]) = true ↔
      lo = (crc16 body).extractLsb' 0 8 ∧ hi = (crc16 body).extractLsb' 8 8

/-- The inputs of one command of host `h`: it is presented, and the core accepts, executes and completes
it. -/
def requestInputs (h : HostId) (r : Request) : List Event :=
  [.present h r.toWord, .core, .core, .core]

/-- The inputs of CRC_INIT and of one CRC_BYTE for each byte (30_encoding.md R91, CRC_BYTES). -/
def crcInputs (h : HostId) (bs : List Byte) : List Event :=
  requestInputs h ⟨0x10#8, 0#24, 0#32, 0#32, 0#32⟩ ++
    bs.flatMap fun b => requestInputs h ⟨0x11#8, 0#24, b.setWidth 32, 0#32, 0#32⟩

/-- A host that submits CRC_INIT and then CRC_BYTE for each byte of a sequence, from any idle state with
no other request, leaves `crc16` of the sequence in CRC_ACC; no transport call is made and the session,
the activation and the result registers stay (R111, R115, R116). The listed inputs are the model's form
(log 8), and that a command takes four steps, the completion one of its own, is its reading (log 2). -/
def Obligations.CrcCommandsComputeCrc16 : Prop :=
  ∀ (h : HostId) (bs : List Byte) (s : State),
    s.ctl.phase = .idle → s.hosts.held = [] → s.hosts.inputs = crcInputs h bs →
    ∃ t, Sys2Proof.core.run (4 * (bs.length + 1)) s = .next t ∧
      t.regs.crcAcc = crc16 bs ∧ t.ctl.phase = .idle ∧ t.hosts.held = [] ∧ t.hosts.inputs = [] ∧
      t.link = s.link ∧ t.ctl.now = s.ctl.now ∧ t.regs.sessionOpen = s.regs.sessionOpen ∧
      t.regs.actState = s.regs.actState ∧ t.regs.lastPos = s.regs.lastPos ∧
      t.regs.lastCur = s.regs.lastCur ∧ t.regs.lastSta = s.regs.lastSta ∧
      t.regs.motionEnc = s.regs.motionEnc ∧ t.regs.faultLog = s.regs.faultLog

/-- CRC_INIT and CRC_BYTE at EXEC: CRC_ACC takes its new value, the response carries it, and nothing else
changes but the control point (R115, R116; `resp`: logs 2, 3). -/
def Obligations.CrcCommandsExecute : Prop :=
  ∀ s : State, s.ctl.phase = .exec →
    exec .crcInit s = .next { s with
      regs := { s.regs with crcAcc := 0xFFFF#16 }
      ctl := { s.ctl with phase := .done, resp := ⟨.none, 0#8, 0#12, 0#8, 0xFFFF#16, 0x10#8⟩ } } ∧
    ∀ b, exec (.crcByte b) s = .next { s with
      regs := { s.regs with crcAcc := crcStep s.regs.crcAcc b }
      ctl := { s.ctl with
        phase := .done, resp := ⟨.none, 0#8, 0#12, 0#8, crcStep s.regs.crcAcc b, 0x11#8⟩ } }

/-- No instruction but CRC_INIT and CRC_BYTE depends on CRC_ACC or writes it: another value there changes
nothing else, so no frame the block builds and no parse depends on it (R118). -/
def Obligations.CrcAccumulatorIsPrivate : Prop :=
  ∀ (i : Instr) (c : Half) (s : State), i ≠ .crcInit → (∀ b, i ≠ .crcByte b) →
    exec i { s with regs := { s.regs with crcAcc := c } } =
      mapNext (fun t => { t with regs := { t.regs with crcAcc := c } }) (exec i s)

/-! ### Operands (42_frame_builder.md) -/

/-- `roundQ` gives a nearest integer in [-2^23, 2^23], and a tie goes to the even one under HALF_EVEN and
away from zero under HALF_AWAY (R125). -/
def Obligations.RoundQIsNearest : Prop :=
  ∀ (tie : RoundTie) (v : Word),
    -128 ≤ 256 * roundQ tie v - v.toInt ∧ 256 * roundQ tie v - v.toInt ≤ 128 ∧
    -8388608 ≤ roundQ tie v ∧ roundQ tie v ≤ 8388608 ∧
    (v.toInt % 256 = 128 → roundQ .halfEven v % 2 = 0) ∧
    (v.toInt % 256 = 128 → 0 ≤ v.toInt → 256 * roundQ .halfAway v = v.toInt + 128) ∧
    (v.toInt % 256 = 128 → v.toInt < 0 → 256 * roundQ .halfAway v = v.toInt - 128)

/-- The encoded byte is `max(0, min(255, round(p)))`; negative arguments give 0x00, arguments of 255.5 and
more give 0xFF, the two tie modes differ exactly on the ties `k + 0.5` with `k` even and 0 ≤ k ≤ 254, where
they give `k` and `k + 1`, and the ties with odd `k` give `k + 1` under both (R127). -/
def Obligations.ClampRoundIsClampedRounding : Prop :=
  (∀ (tie : RoundTie) (v : Word), ((clampRound tie v).toNat : Int) = max 0 (min 255 (roundQ tie v))) ∧
  (∀ (tie : RoundTie) (v : Word), v.toInt < 0 → clampRound tie v = 0x00#8) ∧
  (∀ (tie : RoundTie) (v : Word), 255 * 256 + 128 ≤ v.toInt → clampRound tie v = 0xFF#8) ∧
  (∀ v : Word, clampRound .halfEven v ≠ clampRound .halfAway v ↔
    ∃ k : Nat, k % 2 = 0 ∧ k ≤ 254 ∧ v.toInt = 256 * k + 128) ∧
  (∀ (v : Word) (k : Nat), k % 2 = 0 → k ≤ 254 → v.toInt = 256 * k + 128 →
    (clampRound .halfEven v).toNat = k ∧ (clampRound .halfAway v).toNat = k + 1) ∧
  (∀ (tie : RoundTie) (v : Word) (k : Nat), k % 2 = 1 → k ≤ 253 → v.toInt = 256 * k + 128 →
    (clampRound tie v).toNat = k + 1)

/-! ### Frames (30_encoding.md, 42_frame_builder.md, 43_frame_parser.md, 20_memory.md) -/

/-- The clear and activate frames are the literals of the source (30_encoding.md R83, R84). -/
def Obligations.FixedFramesAreTheLiterals : Prop :=
  buildClearRequest = [0x09#8, 0x10#8, 0x03#8, 0xE8#8, 0x00#8, 0x03#8, 0x06#8,
    0x00#8, 0x00#8, 0x00#8, 0x00#8, 0x00#8, 0x00#8, 0x73#8, 0x30#8] ∧
  buildActivateRequest = [0x09#8, 0x10#8, 0x03#8, 0xE8#8, 0x00#8, 0x03#8, 0x06#8,
    0x01#8, 0x00#8, 0x00#8, 0x00#8, 0x00#8, 0x00#8, 0x72#8, 0xE1#8]

/-- The motion and status-read frames have the layout of R82 and R85, with the trailer of their body, and
every builder's frame passes the CRC check (R131–R133). -/
def Obligations.BuiltFramesHaveTheirLayout : Prop :=
  (∀ (tie : RoundTie) (a0 a1 a2 : Word), ∃ c : Half,
    buildMotionRequest tie a0 a1 a2 = [0x09#8, 0x10#8, 0x03#8, 0xE8#8, 0x00#8, 0x03#8, 0x06#8, 0x09#8,
      0x00#8, 0x00#8, clampRound tie a0, clampRound tie a1, clampRound tie a2,
      c.extractLsb' 0 8, c.extractLsb' 8 8] ∧
    c = crc16 ((buildMotionRequest tie a0 a1 a2).take 13)) ∧
  (∀ addr : Half, ∃ c : Half,
    buildStatusReadRequest addr = [0x09#8, 0x03#8, addr.extractLsb' 8 8, addr.extractLsb' 0 8, 0x00#8,
      0x03#8, c.extractLsb' 0 8, c.extractLsb' 8 8] ∧
    c = crc16 ((buildStatusReadRequest addr).take 6)) ∧
  (∀ f addr, builtFrame addr f = true → checkCRC f = true)

/-- `validate` looks at the length first and at the CRC second (R145). -/
def Obligations.ValidateChecksLengthThenCrc : Prop :=
  ∀ (r : Frame) (n : Nat),
    (r.length < n → validate r n = .error .commTimeout) ∧
    (n ≤ r.length → checkCRC r = false → validate r n = .error .checksumMismatch) ∧
    (n ≤ r.length → checkCRC r = true → validate r n = .ok ())

/-- A response with a right trailer is accepted whatever its header says: only bytes 3, 7 and 8 of a
status response are read, and no byte of an acknowledgement (R146–R149). -/
def Obligations.ParsersIgnoreTheHeader : Prop :=
  (∀ b0 b1 b2 b3 b4 b5 : Byte, parseWriteAck (appendCRC [b0, b1, b2, b3, b4, b5]) = .ok ()) ∧
  (∀ b0 b1 b2 sta b4 b5 b6 pos cur : Byte, ∃ c : BitVec 12,
    parseStatus (appendCRC [b0, b1, b2, sta, b4, b5, b6, pos, cur]) = .ok ⟨pos, c, sta⟩ ∧
    c.toNat = 10 * cur.toNat) ∧
  (∀ b0 b1 b2 sta b4 b5 b6 pos cur : Byte,
    parseActivationAck (appendCRC [b0, b1, b2, sta, b4, b5, b6, pos, cur]) =
      .ok (decide (sta.toNat / 16 = 3)))

/-- A write request names the registers 0x03E8–0x03EA, each with the value its two payload bytes pack to,
high byte first; a status read names STATUS_ADDR and the two after it (20_memory.md R51, R55). -/
def Obligations.FramesNameTheirRegisters : Prop :=
  (∀ p0 p1 p2 p3 p4 p5 : Byte, registerWrites (buildWriteReq [p0, p1, p2, p3, p4, p5]) =
    [(0x03E8#16, p0 ++ p1), (0x03E9#16, p2 ++ p3), (0x03EA#16, p4 ++ p5)]) ∧
  (∀ addr : Half, registerReads (buildStatusReadRequest addr) = [addr, addr + 1#16, addr + 2#16])

/-! ### Commands (44_activation_sequencer.md, 45_session_commands.md) -/

/-- OPEN: in an open session it succeeds with no effect and no transport call; else `TOpen`, which starts
a session in Reset, or raises CONNECTION_FAULT with nothing else changed (R194; `resp`: logs 2, 3; draws:
log 4). -/
def Obligations.OpenExecutes : Prop :=
  ∀ s : State,
    (s.ctl.phase = .exec → s.regs.sessionOpen = true → exec .openCmd s = .next { s with
      ctl := { s.ctl with phase := .done, resp := ⟨.none, 0#8, 0#12, 0#8, 0#16, 0x01#8⟩ } }) ∧
    (s.ctl.phase = .exec → s.regs.sessionOpen = false → exec .openCmd s = .next { s with
      ctl := { s.ctl with phase := .oOpen } }) ∧
    (s.ctl.phase = .oOpen → s.link.draw.ok = true → exec .openCmd s = .next { s with
      regs := { s.regs with sessionOpen := true, actState := .reset }
      ctl := { s.ctl with
        phase := .done
        now := s.ctl.now + s.link.draw.dur
        resp := ⟨.none, 0#8, 0#12, 0#8, 0#16, 0x01#8⟩ }
      link := ⟨s.link.draw.arrive, s.link.oracle.tail, s.link.draws + 1,
        s.link.trace ++ [.opened true s.ctl.now]⟩ }) ∧
    (s.ctl.phase = .oOpen → s.link.draw.ok = false → exec .openCmd s = .next { s with
      ctl := { s.ctl with
        phase := .done
        now := s.ctl.now + s.link.draw.dur
        resp := ⟨.connectionFault, 0#8, 0#12, 0#8, 0#16, s.latch.op⟩ }
      link := ⟨s.link.pending, s.link.oracle.tail, s.link.draws + 1,
        s.link.trace ++ [.opened false s.ctl.now]⟩ })

/-- CLOSE: without a session it succeeds with no effect; else `TClose` and the session ends, on every
path (R195; `resp`: logs 2, 3; draws: log 4). -/
def Obligations.CloseExecutes : Prop :=
  ∀ s : State,
    (s.ctl.phase = .exec → s.regs.sessionOpen = false → exec .closeCmd s = .next { s with
      ctl := { s.ctl with phase := .done, resp := ⟨.none, 0#8, 0#12, 0#8, 0#16, 0x02#8⟩ } }) ∧
    (s.ctl.phase = .exec → s.regs.sessionOpen = true → exec .closeCmd s = .next { s with
      ctl := { s.ctl with phase := .oClose } }) ∧
    (s.ctl.phase = .oClose → exec .closeCmd s = .next { s with
      regs := { s.regs with sessionOpen := false, actState := .reset }
      ctl := { s.ctl with
        phase := .done
        now := s.ctl.now + s.link.draw.dur
        resp := ⟨.none, 0#8, 0#12, 0#8, 0#16, 0x02#8⟩ }
      link := ⟨s.link.pending, s.link.oracle.tail, s.link.draws + 1,
        s.link.trace ++ [.closed s.ctl.now]⟩ })

/-- SET_POSITION in an activated session: EXEC builds the frame and writes MOTION_ENC before anything is
sent, X_TX writes the frame, X_RX reads the acknowledgement and succeeds if it validates (R196; TXBUF at
EXEC: log 19; `resp`: logs 2, 3; draws: log 4). -/
def Obligations.SetPositionExecutes : Prop :=
  ∀ (s : State) (a0 a1 a2 : Word),
    (s.ctl.phase = .exec → s.regs.sessionOpen = true → s.regs.actState = .activated →
      exec (.setPosition a0 a1 a2) s = .next { s with
        regs := { s.regs with
          motionEnc := clampRound s.params.roundTie a2 ++ clampRound s.params.roundTie a1 ++
            clampRound s.params.roundTie a0 }
        ctl := { s.ctl with phase := .xTx, txBuf := buildMotionRequest s.params.roundTie a0 a1 a2 } }) ∧
    (s.ctl.phase = .xTx → exec (.setPosition a0 a1 a2) s = .next { s with
        ctl := { s.ctl with phase := .xRx, now := s.ctl.now + s.link.draw.dur }
        link := ⟨s.link.pending ++ s.link.draw.arrive, s.link.oracle.tail, s.link.draws + 1,
          s.link.trace ++ [.wrote s.ctl.txBuf s.ctl.now]⟩ }) ∧
    (∀ r, s.ctl.phase = .xRx → s.link.draw.hang = false → s.link.readBytes 8 = r →
      parseWriteAck r = .ok () → exec (.setPosition a0 a1 a2) s = .next { s with
        ctl := { s.ctl with
          phase := .done
          now := s.ctl.now + s.link.draw.dur
          rxBuf := r
          rxLen := BitVec.ofNat 4 r.length
          resp := ⟨.none, 0#8, 0#12, 0#8, 0#16, 0x04#8⟩ }
        link := ⟨s.link.pool.drop r.length, s.link.oracle.tail, s.link.draws + 1,
          s.link.trace ++ [.read 8 r s.ctl.now]⟩ })

/-- What a status command makes of a response that validates: the registers and the response arguments
(R197–R199). -/
def statusResult (i : Instr) (v : StatusValue) (r : Regs) : Regs × Resp :=
  match i with
  | .getPosition => ({ r with lastPos := v.pos }, ⟨.none, v.pos, 0#12, 0#8, 0#16, 0x05#8⟩)
  | .getCurrent => ({ r with lastCur := v.cur }, ⟨.none, 0#8, v.cur, 0#8, 0#16, 0x06#8⟩)
  | _ => ({ r with lastPos := v.pos, lastCur := v.cur, lastSta := v.sta },
      ⟨.none, v.pos, v.cur, v.sta, 0#16, 0x07#8⟩)

/-- GET_POSITION, GET_CURRENT and GET_STATUS in an activated session: EXEC checks, X_TX writes the status
read, X_RX reads the response and, if it validates, keeps what the command is for (R197–R199; `resp`: logs
2, 3; draws: log 4). -/
def Obligations.StatusCommandsExecute : Prop :=
  ∀ (s : State) (i : Instr), i = .getPosition ∨ i = .getCurrent ∨ i = .getStatus →
    (s.ctl.phase = .exec → s.regs.sessionOpen = true → s.regs.actState = .activated →
      exec i s = .next { s with ctl := { s.ctl with phase := .xTx } }) ∧
    (s.ctl.phase = .xTx → exec i s = .next { s with
        ctl := { s.ctl with
          phase := .xRx
          now := s.ctl.now + s.link.draw.dur
          txBuf := buildStatusReadRequest s.params.statusAddr }
        link := ⟨s.link.pending ++ s.link.draw.arrive, s.link.oracle.tail, s.link.draws + 1,
          s.link.trace ++ [.wrote (buildStatusReadRequest s.params.statusAddr) s.ctl.now]⟩ }) ∧
    (∀ r v, s.ctl.phase = .xRx → s.link.draw.hang = false → s.link.readBytes 11 = r →
      parseStatus r = .ok v → exec i s = .next { s with
        regs := (statusResult i v s.regs).1
        ctl := { s.ctl with
          phase := .done
          now := s.ctl.now + s.link.draw.dur
          rxBuf := r
          rxLen := BitVec.ofNat 4 r.length
          resp := (statusResult i v s.regs).2 }
        link := ⟨s.link.pool.drop r.length, s.link.oracle.tail, s.link.draws + 1,
          s.link.trace ++ [.read 11 r s.ctl.now]⟩ })

/-- A whole GET_POSITION, from EXEC to IDLE: four steps, one frame written and one read, and the response
word goes to the requester (R197, R192, R204; the completion as one of the steps: logs 2, 3; draws: log 4). -/
def Obligations.GetPositionRunsToCompletion : Prop :=
  ∀ (s : State) (d1 d2 : Draw) (rest : List Draw) (b0 b1 b2 sta b4 b5 b6 pos cur : Byte),
    s.ctl.phase = .exec → s.latch.op = 0x05#8 → s.latch.rsv = 0#24 → s.hosts.inputs = [] →
    s.regs.sessionOpen = true → s.regs.actState = .activated → s.link.oracle = d1 :: d2 :: rest →
    d2.hang = false → 11 ≤ d2.count →
    (s.link.pending ++ d1.arrive ++ d2.arrive).take 11 =
      appendCRC [b0, b1, b2, sta, b4, b5, b6, pos, cur] →
    ∃ t, Sys2Proof.core.run 4 s = .next t ∧
      t.regs = { s.regs with lastPos := pos, lastFault := .none, busy := false } ∧
      t.ctl.phase = .idle ∧ t.ctl.now = s.ctl.now + d1.dur + d2.dur ∧
      t.link.pending = (s.link.pending ++ d1.arrive ++ d2.arrive).drop 11 ∧
      t.link.trace = s.link.trace ++
        [.wrote (buildStatusReadRequest s.params.statusAddr) s.ctl.now,
          .read 11 (appendCRC [b0, b1, b2, sta, b4, b5, b6, pos, cur]) (s.ctl.now + d1.dur)] ∧
      t.hosts.responses = s.hosts.responses ++
        [(s.ctl.requester, 0x05#8 ++ 0#40 ++ pos ++ 0x20#8)]

/-- ACTIVATE, step by step, where its read returns (R166–R177, R183; `resp`: logs 2, 3; draws: log 4). -/
def Obligations.ActivateExecutes : Prop :=
  ∀ s : State,
    (s.ctl.phase = .exec → s.regs.sessionOpen = true → exec .activate s = .next { s with
      regs := { s.regs with actState := .activating }
      ctl := { s.ctl with phase := .aClr } }) ∧
    (s.ctl.phase = .aClr → exec .activate s = .next { s with
      ctl := { s.ctl with
        phase := .aSet1
        deadline := s.ctl.now + s.params.tActTimeout
        now := s.ctl.now + s.link.draw.dur
        txBuf := buildClearRequest }
      link := ⟨s.link.pending ++ s.link.draw.arrive, s.link.oracle.tail, s.link.draws + 1,
        s.link.trace ++ [.wrote buildClearRequest s.ctl.now]⟩ }) ∧
    (s.ctl.phase = .aSet1 → exec .activate s = .next { s with
      ctl := { s.ctl with phase := .aAct, now := s.ctl.now + s.params.tSettle } }) ∧
    (s.ctl.phase = .aAct → exec .activate s = .next { s with
      ctl := { s.ctl with
        phase := .aSet2
        now := s.ctl.now + s.link.draw.dur
        txBuf := buildActivateRequest }
      link := ⟨s.link.pending ++ s.link.draw.arrive, s.link.oracle.tail, s.link.draws + 1,
        s.link.trace ++ [.wrote buildActivateRequest s.ctl.now]⟩ }) ∧
    (s.ctl.phase = .aSet2 → exec .activate s = .next { s with
      ctl := { s.ctl with phase := .aDisc, now := s.ctl.now + s.params.tSettle } }) ∧
    (s.ctl.phase = .aDisc → exec .activate s = .next { s with
      ctl := { s.ctl with phase := .aPtx }
      link := { s.link with pending := [], trace := s.link.trace ++ [.discarded s.ctl.now] } }) ∧
    (s.ctl.phase = .aPtx → exec .activate s = .next { s with
      ctl := { s.ctl with
        phase := .aPrx
        now := s.ctl.now + s.link.draw.dur
        txBuf := buildStatusReadRequest s.params.statusAddr }
      link := ⟨s.link.pending ++ s.link.draw.arrive, s.link.oracle.tail, s.link.draws + 1,
        s.link.trace ++ [.wrote (buildStatusReadRequest s.params.statusAddr) s.ctl.now]⟩ }) ∧
    (∀ r, s.ctl.phase = .aPrx → s.link.draw.hang = false → s.link.readBytes 11 = r →
      parseActivationAck r = .ok true → exec .activate s = .next { s with
        regs := { s.regs with actState := .activated }
        ctl := { s.ctl with
          phase := .done
          now := s.ctl.now + s.link.draw.dur
          rxBuf := r
          rxLen := BitVec.ofNat 4 r.length
          resp := ⟨.none, 0#8, 0#12, 0#8, 0#16, 0x03#8⟩ }
        link := ⟨s.link.pool.drop r.length, s.link.oracle.tail, s.link.draws + 1,
          s.link.trace ++ [.read 11 r s.ctl.now]⟩ }) ∧
    (∀ r, s.ctl.phase = .aPrx → s.link.draw.hang = false → s.link.readBytes 11 = r →
      parseActivationAck r ≠ .ok true → s.ctl.now + s.link.draw.dur < s.ctl.deadline →
      exec .activate s = .next { s with
        ctl := { s.ctl with
          phase := .aPwait
          now := s.ctl.now + s.link.draw.dur
          rxBuf := r
          rxLen := BitVec.ofNat 4 r.length }
        link := ⟨s.link.pool.drop r.length, s.link.oracle.tail, s.link.draws + 1,
          s.link.trace ++ [.read 11 r s.ctl.now]⟩ }) ∧
    (s.ctl.phase = .aPwait → s.ctl.now + min s.params.tPoll (s.ctl.deadline - s.ctl.now) < s.ctl.deadline →
      exec .activate s = .next { s with
        ctl := { s.ctl with
          phase := .aPtx
          now := s.ctl.now + min s.params.tPoll (s.ctl.deadline - s.ctl.now) } })

/-! ### Wire frames (30_encoding.md R82–R87) -/

/-- A transmitted frame, at the step that sends it: the transport sees its bytes at `now`, TXBUF holds
them, and the control point moves on (R129–R133, 20_memory.md R56; `exec` of a frame: log 16). -/
def Obligations.SentFramesExecute : Prop :=
  ∀ s : State,
    let sent (f : Frame) (p : Phase) : State := { s with
      ctl := { s.ctl with phase := p, now := s.ctl.now + s.link.draw.dur, txBuf := f }
      link := ⟨s.link.pending ++ s.link.draw.arrive, s.link.oracle.tail, s.link.draws + 1,
        s.link.trace ++ [.wrote f s.ctl.now]⟩ }
    (s.ctl.phase = .aClr → exec .frameClear s = .next { sent buildClearRequest .aSet1 with
      ctl := { (sent buildClearRequest .aSet1).ctl with
        deadline := s.ctl.now + s.params.tActTimeout } }) ∧
    (s.ctl.phase = .aAct → exec .frameActivate s = .next (sent buildActivateRequest .aSet2)) ∧
    (∀ p v f crc, (Instr.frameMotion p v f crc).wf = true → s.ctl.phase = .xTx → s.latch.op = 0x04#8 →
      exec (.frameMotion p v f crc) s = .next (sent (buildMotionBytes p v f) .xRx)) ∧
    (∀ addr crc, (Instr.frameStatusRead addr crc).wf = true → s.ctl.phase = .aPtx →
      exec (.frameStatusRead addr crc) s = .next (sent (buildStatusReadRequest addr) .aPrx)) ∧
    (∀ addr crc, (Instr.frameStatusRead addr crc).wf = true → s.ctl.phase = .xTx →
      s.latch.op = 0x05#8 ∨ s.latch.op = 0x06#8 ∨ s.latch.op = 0x07#8 →
      exec (.frameStatusRead addr crc) s = .next (sent (buildStatusReadRequest addr) .xRx))

/-- A received frame with a right trailer, at the step that receives it: RXBUF and RXLEN hold it, and the
running command succeeds with what it decodes (R146–R148, 44_activation_sequencer.md R174; `exec` of a
frame: log 16). -/
def Obligations.ReceivedFramesExecute : Prop :=
  ∀ (s : State) (bytes : Frame),
    let received (n : Nat) (r : Resp) : State := { s with
      ctl := { s.ctl with
        phase := .done
        now := s.ctl.now + s.link.draw.dur
        rxBuf := bytes
        rxLen := BitVec.ofNat 4 n
        resp := r }
      link := ⟨s.link.pool.drop n, s.link.oracle.tail, s.link.draws + 1,
        s.link.trace ++ [.read n bytes s.ctl.now]⟩ }
    (bytes.length = 8 → checkCRC bytes = true → s.ctl.phase = .xRx → s.latch.op = 0x04#8 →
      exec (.frameWriteAck bytes) s =
        .next (received 8 ⟨.none, 0#8, 0#12, 0#8, 0#16, 0x04#8⟩)) ∧
    (∀ v, bytes.length = 11 → parseStatus bytes = .ok v → s.ctl.phase = .xRx → s.latch.op = 0x05#8 →
      exec (.frameStatusResponse bytes) s =
        .next { received 11 ⟨.none, v.pos, 0#12, 0#8, 0#16, 0x05#8⟩ with
          regs := { s.regs with lastPos := v.pos } }) ∧
    (∀ v, bytes.length = 11 → parseStatus bytes = .ok v → s.ctl.phase = .xRx → s.latch.op = 0x06#8 →
      exec (.frameStatusResponse bytes) s =
        .next { received 11 ⟨.none, 0#8, v.cur, 0#8, 0#16, 0x06#8⟩ with
          regs := { s.regs with lastCur := v.cur } }) ∧
    (∀ v, bytes.length = 11 → parseStatus bytes = .ok v → s.ctl.phase = .xRx → s.latch.op = 0x07#8 →
      exec (.frameStatusResponse bytes) s =
        .next { received 11 ⟨.none, v.pos, v.cur, v.sta, 0#16, 0x07#8⟩ with
          regs := { s.regs with lastPos := v.pos, lastCur := v.cur, lastSta := v.sta } }) ∧
    (bytes.length = 11 → parseActivationAck bytes = .ok true → s.ctl.phase = .aPrx →
      exec (.frameStatusResponse bytes) s =
        .next { received 11 ⟨.none, 0#8, 0#12, 0#8, 0#16, 0x03#8⟩ with
          regs := { s.regs with actState := .activated } })

/-- Where the core sends or receives a frame, its step is that frame's meaning: the frame the running
command sends, or the full-length one its read returns (R88, R133; the model's form, log 16). -/
def Obligations.StepRunsTheWireFrame : Prop :=
  ∀ s : State, s.hosts.inputs = [] → s.latch.rsv = 0#24 →
    (s.ctl.phase = .aClr → s.latch.op = 0x03#8 → step s = exec .frameClear s) ∧
    (s.ctl.phase = .aAct → s.latch.op = 0x03#8 → step s = exec .frameActivate s) ∧
    (∀ crc, (Instr.frameStatusRead s.params.statusAddr crc).wf = true → s.ctl.phase = .aPtx →
      s.latch.op = 0x03#8 → step s = exec (.frameStatusRead s.params.statusAddr crc) s) ∧
    (∀ crc, (Instr.frameStatusRead s.params.statusAddr crc).wf = true → s.ctl.phase = .xTx →
      s.latch.op = 0x05#8 ∨ s.latch.op = 0x06#8 ∨ s.latch.op = 0x07#8 →
      step s = exec (.frameStatusRead s.params.statusAddr crc) s) ∧
    (∀ p v f crc, (Instr.frameMotion p v f crc).wf = true → s.ctl.phase = .xTx → s.latch.op = 0x04#8 →
      s.ctl.txBuf = buildMotionBytes p v f → step s = exec (.frameMotion p v f crc) s) ∧
    (∀ bytes, s.ctl.phase = .xRx → s.latch.op = 0x04#8 → s.link.draw.hang = false →
      s.link.readBytes 8 = bytes → bytes.length = 8 → step s = exec (.frameWriteAck bytes) s) ∧
    (∀ bytes, s.ctl.phase = .xRx → s.latch.op = 0x05#8 ∨ s.latch.op = 0x06#8 ∨ s.latch.op = 0x07#8 →
      s.link.draw.hang = false → s.link.readBytes 11 = bytes → bytes.length = 11 →
      step s = exec (.frameStatusResponse bytes) s) ∧
    (∀ bytes, s.ctl.phase = .aPrx → s.latch.op = 0x03#8 → s.link.draw.hang = false →
      s.link.readBytes 11 = bytes → bytes.length = 11 → step s = exec (.frameStatusResponse bytes) s)

/-! ### The step -/

/-- A running core's step is `exec` of the latched request's command, with the inputs moved past a listed
core step (45_session_commands.md R191; inputs: log 8). -/
def Obligations.StepRunsTheLatchedCommand : Prop :=
  ∀ (s : State) (i : Instr), s.ctl.phase ≠ .idle → decodeRequest s.latch = .ok i →
    (s.hosts.inputs = [] → step s = exec i s) ∧
    (∀ es, s.hosts.inputs = .core :: es →
      step s = exec i { s with hosts := { s.hosts with inputs := es } })

/-- The state `withFetchWord` builds for a row's well-formed instruction runs exactly it next
(the model's form, logs 1, 17). -/
def Obligations.FetchWordRunsTheRow : Prop :=
  ∀ (s : State) (nbits w : Nat) (i : Instr), decodeTableWord nbits w = some i → i.wf = true →
    step (s.withFetchWord nbits w) = exec i ((s.withFetchWord nbits w).withInputs s.hosts.inputs)

/-! ### Responses and faults (45_session_commands.md, 60_exceptions.md) -/

/-- The fields of the response word (30_encoding.md R80). -/
def Obligations.ResponseWordHasItsFields : Prop :=
  ∀ (act : ActState) (r : Resp),
    (responseWord act r).extractLsb' 0 4 = r.fault.code ∧
    (responseWord act r).extractLsb' 4 2 = act.code ∧
    (responseWord act r).extractLsb' 6 2 = 0#2 ∧
    (responseWord act r).extractLsb' 8 8 = (if r.fault = .none then r.pos else 0#8) ∧
    (responseWord act r).extractLsb' 16 12 = (if r.fault = .none then r.cur else 0#12) ∧
    (responseWord act r).extractLsb' 28 4 = 0#4 ∧
    (responseWord act r).extractLsb' 32 8 = (if r.fault = .none then r.sta else 0#8) ∧
    (responseWord act r).extractLsb' 40 16 = (if r.fault = .none then r.crc else 0#16) ∧
    (responseWord act r).extractLsb' 56 8 = r.op

/-- The state after the completion step of R192: the response word, OR-ed from its shifted fields, goes to
REQUESTER, LAST_FAULT takes the code, its FAULT_LOG bit is set unless it is NONE, and BUSY falls. -/
def answered (s : State) : State :=
  { s with
    regs := { s.regs with
      lastFault := s.ctl.resp.fault
      faultLog :=
        if s.ctl.resp.fault = .none then s.regs.faultLog
        else s.regs.faultLog ||| 1#8 <<< s.ctl.resp.fault.num
      busy := false }
    ctl := { s.ctl with phase := .idle }
    hosts := { s.hosts with responses := s.hosts.responses ++ [(s.ctl.requester,
      s.ctl.resp.fault.code.setWidth 64 ||| (s.regs.actState.code.setWidth 64 <<< 4) |||
      ((if s.ctl.resp.fault = .none then s.ctl.resp.pos else 0#8).setWidth 64 <<< 8) |||
      ((if s.ctl.resp.fault = .none then s.ctl.resp.cur else 0#12).setWidth 64 <<< 16) |||
      ((if s.ctl.resp.fault = .none then s.ctl.resp.sta else 0#8).setWidth 64 <<< 32) |||
      ((if s.ctl.resp.fault = .none then s.ctl.resp.crc else 0#16).setWidth 64 <<< 40) |||
      (s.ctl.resp.op.setWidth 64 <<< 56))] } }

/-- The completion step of every command: the response word of R192, OR-ed from its shifted fields, goes to
REQUESTER, LAST_FAULT takes the code, its FAULT_LOG bit is set unless it is NONE, BUSY falls, and nothing
else changes (R192, R232; completion as a step at DONE: logs 2, 3). -/
def Obligations.CompletionDeliversTheResponse : Prop :=
  ∀ (s : State) (i : Instr), isCommand i = true → s.ctl.phase = .done →
    exec i s = .next (answered s)

/-- The state after `raise Fault(c)`: everything kept, DONE next, with a response that carries the code and
no data (60_exceptions.md R233, R236). -/
def faulted (c : FaultCode) (s : State) : State :=
  { s with ctl := { s.ctl with phase := .done, resp := ⟨c, 0#8, 0#12, 0#8, 0#16, s.latch.op⟩ } }

/-- A request with a reserved OP or a nonzero RSV completes with ILLEGAL_COMMAND, before any other check
and with no transport call: EXEC changes no register, DONE is the completion step, and the two together
change BUSY, LAST_FAULT and FAULT_LOG bit 6 and deliver to REQUESTER a response with FAULT 6, ACT_STATE, no
data and the OP (45_session_commands.md R192, R193, R205; completion as a step at DONE: logs 2, 3). -/
def Obligations.IllegalRequestsFault : Prop :=
  ∀ s : State, s.hosts.inputs = [] →
    s.latch.rsv ≠ 0#24 ∨ s.latch.op = 0x00#8 ∨ (0x08#8 ≤ s.latch.op ∧ s.latch.op ≤ 0x0F#8) ∨
      0x12#8 ≤ s.latch.op →
    (s.ctl.phase = .exec → step s = .next (faulted .illegalCommand s)) ∧
    (s.ctl.phase = .done → step s = .next (answered s)) ∧
    (s.ctl.phase = .exec → ∃ t, Sys2Proof.core.run 2 s = .next t ∧ t.link = s.link ∧
      t.ctl.phase = .idle ∧
      t.regs = { s.regs with
        busy := false
        lastFault := .illegalCommand
        faultLog := s.regs.faultLog ||| 0x40#8 } ∧
      t.hosts = { s.hosts with responses := s.hosts.responses ++
        [(s.ctl.requester, s.latch.op ++ 0#50 ++ s.regs.actState.code ++ 0x6#4)] })

/-- The gates before any byte is sent, in their order: SESSION_CLOSED, then NOT_ACTIVATED
(60_exceptions.md R231, R234, R241). -/
def Obligations.GatesFaultInOrder : Prop :=
  ∀ s : State, s.ctl.phase = .exec →
    (s.regs.sessionOpen = false → exec .activate s = .next (faulted .sessionClosed s)) ∧
    ∀ i, isExchange i = true →
      (s.regs.sessionOpen = false → exec i s = .next (faulted .sessionClosed s)) ∧
      (s.regs.sessionOpen = true → s.regs.actState ≠ .activated →
        exec i s = .next (faulted .notActivated s))

/-- How many bytes the response of a motion or status command has (00_scope.md R7). -/
def answerLength : Instr → Nat
  | .setPosition _ _ _ => 8
  | _ => 11

/-- A short response raises COMM_TIMEOUT and is never CRC-checked, a full one with a wrong trailer raises
CHECKSUM_MISMATCH; either way no register changes and nothing is retried (60_exceptions.md R231, R234;
45_session_commands.md R200–R202). -/
def Obligations.BadResponsesFault : Prop :=
  ∀ (s : State) (i : Instr) (r : Frame), s.ctl.phase = .xRx → s.link.draw.hang = false →
    isExchange i = true → s.link.readBytes (answerLength i) = r →
    (r.length < answerLength i →
      exec i s = .next (faulted .commTimeout (rxReadReturns (answerLength i) r s))) ∧
    (answerLength i ≤ r.length → checkCRC r = false →
      exec i s = .next (faulted .checksumMismatch (rxReadReturns (answerLength i) r s)))

/-- A poll that fails is no fault: with the deadline ahead, at the end of the read or of the wait, the loop
goes on and no register changes; with the deadline reached ACTIVATE ends in TimedOut with
ACTIVATION_TIMED_OUT (44_activation_sequencer.md R175–R178; TIMEOUT as part of the step that reaches it: log
20; `resp`: logs 2, 3; draws: log 4). -/
def Obligations.FailedPollsTimeOutAtTheDeadline : Prop :=
  ∀ s : State,
    (∀ r, s.ctl.phase = .aPrx → s.link.draw.hang = false → s.link.readBytes 11 = r →
      parseActivationAck r ≠ .ok true → s.ctl.deadline ≤ s.ctl.now + s.link.draw.dur →
      exec .activate s = .next (faulted .activationTimedOut
        { rxReadReturns 11 r s with regs := { s.regs with actState := .timedOut } })) ∧
    (∀ r, s.ctl.phase = .aPrx → s.link.draw.hang = false → s.link.readBytes 11 = r →
      parseActivationAck r ≠ .ok true → s.ctl.now + s.link.draw.dur < s.ctl.deadline →
      exec .activate s = .next { rxReadReturns 11 r s with
        ctl := { (rxReadReturns 11 r s).ctl with phase := .aPwait } }) ∧
    (s.ctl.phase = .aPwait →
      s.ctl.now + min s.params.tPoll (s.ctl.deadline - s.ctl.now) < s.ctl.deadline →
      exec .activate s = .next { s with
        ctl := { s.ctl with
          phase := .aPtx
          now := s.ctl.now + min s.params.tPoll (s.ctl.deadline - s.ctl.now) } }) ∧
    (s.ctl.phase = .aPwait →
      s.ctl.deadline ≤ s.ctl.now + min s.params.tPoll (s.ctl.deadline - s.ctl.now) →
      exec .activate s = .next (faulted .activationTimedOut { s with
        regs := { s.regs with actState := .timedOut }
        ctl := { s.ctl with now := s.ctl.now + min s.params.tPoll (s.ctl.deadline - s.ctl.now) } }))

/-- A read that never returns leaves the core where it is (70_reset_and_hazards.md R268; the unchanged state
is the model's form of a stuck core, log 9). -/
def Obligations.EndlessReadsAreStuck : Prop :=
  ∀ (s : State) (i : Instr), s.link.draw.hang = true →
    (s.ctl.phase = .xRx → isExchange i = true → exec i s = .next s) ∧
    (s.ctl.phase = .aPrx → exec .activate s = .next s)

/-- A motion or status command never changes SESSION_OPEN, ACT_STATE or CRC_ACC, whatever its outcome
(45_session_commands.md R200, 10_state.md R40). -/
def Obligations.ExchangesKeepTheActivation : Prop :=
  ∀ (s t : State) (i : Instr), isExchange i = true → exec i s = .next t →
    t.regs.actState = s.regs.actState ∧ t.regs.sessionOpen = s.regs.sessionOpen ∧
    t.regs.crcAcc = s.regs.crcAcc

/-! ### Frames of all instructions -/

/-- What no instruction changes: the parameters, the latches, LAST_OP, REQUESTER, the held requests, the
inputs, the arbiter's choices and the replies of the status bank (70_reset_and_hazards.md R265, 10_state.md
R21, R35, R38; REQUESTER after a completion: log 13). -/
def Obligations.InstructionsKeepThePort : Prop :=
  ∀ (i : Instr) (s t : State), exec i s = .next t →
    t.params = s.params ∧ t.latch = s.latch ∧ t.regs.lastOp = s.regs.lastOp ∧
    t.ctl.requester = s.ctl.requester ∧ t.hosts = { s.hosts with responses := t.hosts.responses } ∧
    (t.hosts.responses = s.hosts.responses ∨ s.ctl.phase = .done)

/-- Which step writes which register: the writers of 10_state.md R21–R29, R31, R32, R34, R35. -/
def Obligations.EachRegisterHasItsWriters : Prop :=
  ∀ s t : State, step s = .next t → s.resetNext = false →
    t.params = s.params ∧
    (t.latch ≠ s.latch → s.ctl.phase = .idle) ∧
    (t.regs.lastOp ≠ s.regs.lastOp → s.ctl.phase = .idle) ∧
    (t.regs.busy ≠ s.regs.busy → s.ctl.phase = .idle ∨ s.ctl.phase = .done) ∧
    (t.regs.lastFault ≠ s.regs.lastFault → s.ctl.phase = .done) ∧
    (t.regs.faultLog ≠ s.regs.faultLog → s.ctl.phase = .done) ∧
    (t.regs.sessionOpen ≠ s.regs.sessionOpen →
      (s.ctl.phase = .oOpen ∧ s.runs 0x01#8 = true) ∨ (s.ctl.phase = .oClose ∧ s.runs 0x02#8 = true)) ∧
    (t.regs.actState ≠ s.regs.actState →
      (s.ctl.phase = .oOpen ∧ s.runs 0x01#8 = true) ∨ (s.ctl.phase = .oClose ∧ s.runs 0x02#8 = true) ∨
      (s.runs 0x03#8 = true ∧
        (s.ctl.phase = .exec ∨ s.ctl.phase = .aPrx ∨ s.ctl.phase = .aPwait))) ∧
    (t.regs.crcAcc ≠ s.regs.crcAcc →
      s.ctl.phase = .exec ∧ (s.runs 0x10#8 = true ∨ s.runs 0x11#8 = true)) ∧
    (t.regs.lastPos ≠ s.regs.lastPos →
      s.ctl.phase = .xRx ∧ (s.runs 0x05#8 = true ∨ s.runs 0x07#8 = true)) ∧
    (t.regs.lastCur ≠ s.regs.lastCur →
      s.ctl.phase = .xRx ∧ (s.runs 0x06#8 = true ∨ s.runs 0x07#8 = true)) ∧
    (t.regs.lastSta ≠ s.regs.lastSta → s.ctl.phase = .xRx ∧ s.runs 0x07#8 = true) ∧
    (t.regs.motionEnc ≠ s.regs.motionEnc → s.ctl.phase = .exec ∧ s.runs 0x04#8 = true) ∧
    (t.ctl.deadline ≠ s.ctl.deadline → s.ctl.phase = .aClr ∧ s.runs 0x03#8 = true)

/-- A result register changes only to what a validated response holds, in a command that then succeeds
(45_session_commands.md R202). That the command succeeds is read from `resp` (logs 2, 3). -/
def Obligations.ResultsComeFromValidatedResponses : Prop :=
  ∀ s t : State, step s = .next t → s.resetNext = false →
    t.regs.lastPos ≠ s.regs.lastPos ∨ t.regs.lastCur ≠ s.regs.lastCur ∨
      t.regs.lastSta ≠ s.regs.lastSta →
    ∃ v, parseStatus t.ctl.rxBuf = .ok v ∧ t.ctl.resp.fault = .none ∧
      (t.regs.lastPos = s.regs.lastPos ∨ t.regs.lastPos = v.pos) ∧
      (t.regs.lastCur = s.regs.lastCur ∨ t.regs.lastCur = v.cur) ∧
      (t.regs.lastSta = s.regs.lastSta ∨ t.regs.lastSta = v.sta)

/-- FAULT_LOG is sticky and `now` never falls, but for a reset (10_state.md R26, R33). -/
def Obligations.FaultLogIsStickyAndTimeNeverFalls : Prop :=
  ∀ s t : State, step s = .next t → s.resetNext = false →
    (∀ k, s.regs.faultLog.getLsbD k = true → t.regs.faultLog.getLsbD k = true) ∧
    s.ctl.now ≤ t.ctl.now

/-- The transport's record only grows, and bytes are lost only to reads, to RxDiscard and to a new
session: outside X_RX, A_PRX, A_DISC and O_OPEN the pending bytes stay and others may follow them
(20_memory.md R65, R72; the record: log 14). -/
def Obligations.PendingBytesStayUntilConsumed : Prop :=
  ∀ s t : State, step s = .next t → s.resetNext = false →
    (∃ es, t.link.trace = s.link.trace ++ es) ∧
    (s.ctl.phase ≠ .xRx → s.ctl.phase ≠ .aPrx → s.ctl.phase ≠ .aDisc → s.ctl.phase ≠ .oOpen →
      ∃ bs, t.link.pending = s.link.pending ++ bs)

/-! ### Other agents, acceptance, reset (10_state.md, 20_memory.md, 70_reset_and_hazards.md) -/

/-- The status bank (20_memory.md R52). -/
def Obligations.BankWordsHaveTheirLayout : Prop :=
  ∀ r : Regs,
    (bankWord r 0#4).getLsbD 0 = r.busy ∧ (bankWord r 0#4).getLsbD 1 = r.sessionOpen ∧
    (bankWord r 0#4).extractLsb' 2 2 = r.actState.code ∧
    (bankWord r 0#4).extractLsb' 4 4 = r.lastFault.code ∧
    (bankWord r 0#4).extractLsb' 8 24 = 0#24 ∧
    bankWord r 1#4 = r.faultLog.setWidth 32 ∧ bankWord r 2#4 = r.crcAcc.setWidth 32 ∧
    bankWord r 3#4 = r.lastPos.setWidth 32 ∧ bankWord r 4#4 = r.lastCur.setWidth 32 ∧
    bankWord r 5#4 = r.lastSta.setWidth 32 ∧ bankWord r 6#4 = r.motionEnc.setWidth 32 ∧
    bankWord r 7#4 = r.lastOp.setWidth 32 ∧
    (∀ idx : BitVec 4, 8#4 ≤ idx → bankWord r idx = 0#32)

/-- A host's read of the status bank is answered at once, from the registers between two core steps, and
changes nothing; an access of another width is refused (20_memory.md R53, R61; its reply without a word: log
11; the record of replies: log 14). -/
def Obligations.BankReadsHaveNoSideEffect : Prop :=
  ∀ (s : State) (h : HostId) (idx : BitVec 4) (width : Nat) (es : List Event),
    s.hosts.inputs = .bankRead h idx width :: es →
    step s = .next { s with hosts := { s.hosts with
      inputs := es
      bankReplies := s.hosts.bankReplies ++
        [⟨h, idx, if width = 32 then some (bankWord s.regs idx) else none⟩] } }

/-- Presenting a request changes nothing but the held requests, busy or not; the new one is held if its
host holds none, and no held request is lost (45_session_commands.md R190, 10_state.md R39; a second request
of the same host: log 10). -/
def Obligations.PresentedRequestsAreHeld : Prop :=
  ∀ (s : State) (h : HostId) (w : BitVec 128) (es : List Event),
    s.hosts.inputs = .present h w :: es →
    ∃ held, step s = .next { s with hosts := { s.hosts with inputs := es, held := held } } ∧
      (∀ x, x ∈ s.hosts.held → x ∈ held) ∧
      ((∀ x, x ∈ s.hosts.held → x.1 ≠ h) → (h, w) ∈ held ∧ ∀ x, x ∈ held → x = (h, w) ∨ x ∈ s.hosts.held)

/-- The idle core accepts a held request, and whichever one the arbiter picks: its fields are latched,
BUSY, LAST_OP, REQUESTER and the control point are written, it is held no longer, and nothing else
changes (45_session_commands.md R190, 20_memory.md R67; the list of picks: log 10). -/
def Obligations.IdleCoreAcceptsAnyHeldRequest : Prop :=
  ∀ (s : State) (k : Nat) (picks : List Nat) (h : HostId) (w : BitVec 128),
    s.ctl.phase = .idle → s.hosts.inputs = [] → s.hosts.picks = k :: picks → s.hosts.held[k]? = some (h, w) →
    step s = .next { s with
      regs := { s.regs with busy := true, lastOp := w.extractLsb' 0 8 }
      latch := ⟨w.extractLsb' 0 8, w.extractLsb' 8 24, w.extractLsb' 32 32, w.extractLsb' 64 32,
        w.extractLsb' 96 32⟩
      ctl := { s.ctl with requester := some h, phase := .exec }
      hosts := { s.hosts with
        held := s.hosts.held.eraseIdx k, picks := picks, arbitrations := s.hosts.arbitrations + 1 } }

/-- The state after reset (70_reset_and_hazards.md R260, where it gives a value). -/
def Obligations.ResetLeavesTheResetValues : Prop :=
  State.reset.regs =
    ⟨false, .reset, false, .none, 0x00#8, 0xFFFF#16, 0#8, 0#12, 0#8, 0#24, 0#8⟩ ∧
  State.reset.latch = ⟨0#8, 0#24, 0#32, 0#32, 0#32⟩ ∧
  State.reset.ctl.phase = .idle ∧ State.reset.ctl.now = 0 ∧ State.reset.ctl.deadline = 0 ∧
  State.reset.ctl.requester = none ∧ State.reset.hosts.held = []

/-- The reset input at any control point: the block's registers, latches, control and time are those of
reset, the running and the held requests are dropped without a response, and the transport has seen at most
one first part of the frame being written and then one TClose exactly when a session was open; that frame is
the one the core's next step would have written (70_reset_and_hazards.md R260–R263). What outlives a reset and
how many bytes were sent are the model's form (log 12), and so are the values of TXBUF, RXBUF, RXLEN (log 6)
and `resp` (log 3) in the control part, which R260 does not give. -/
def Obligations.ResetInputDropsEverything : Prop :=
  ∀ (s : State) (sent : Nat) (es : List Event), s.hosts.inputs = .reset sent :: es →
    (∃ t, step s = .next t ∧ t.regs = State.reset.regs ∧ t.latch = State.reset.latch ∧
      t.ctl = State.reset.ctl ∧ t.params = s.params ∧
      t.hosts = { s.hosts with held := [], inputs := es } ∧
      ∃ part, t.link = { s.link with trace := s.link.trace ++ part ++
          (if s.regs.sessionOpen then [.closed s.ctl.now] else []) } ∧
        (sent = 0 ∨ frameInProgress s = none → part = []) ∧
        (∀ f, sent ≠ 0 → frameInProgress s = some f → part = [.cut (f.take sent) s.ctl.now])) ∧
    (s.Inv → ∀ f, frameInProgress s = some f ↔
      ∃ u, coreStep s = .next u ∧ u.link.trace = s.link.trace ++ [.wrote f s.ctl.now])

/-- The hosts' names are invisible to commands: another requester changes only where the response goes
(60_exceptions.md R240, 45_session_commands.md R204). -/
def Obligations.HostIdentityIsInvisible : Prop :=
  ∀ (i : Instr) (x : Option HostId) (s : State),
    exec i { s with ctl := { s.ctl with requester := x } } =
      mapNext (fun t => { t with
        ctl := { t.ctl with requester := x }
        hosts := { t.hosts with responses :=
          s.hosts.responses ++ (t.hosts.responses.drop s.hosts.responses.length).map fun p => (x, p.2) } })
        (exec i s)

/-- Host programs: the pseudo-instructions expand as R91 says, and a decimal literal is assembled exactly
when its value times 256 is an integer of 32 bits, which the word then holds (30_encoding.md R90, R91). -/
def Obligations.HostLinesAssemble : Prop :=
  (∀ bs, HostLine.expand (.crcBytes bs) = .crcInit :: bs.map .crcByte) ∧
  HostLine.expand .start = [.openLine, .activate] ∧
  HostLine.expand .restart = [.closeLine, .openLine, .activate] ∧
  (∀ p v f, HostLine.expand (.setpos p v f) = [.setPosition p v f]) ∧
  (∀ (d : Decimal) (x : Word), d.toWord = some x ↔ d.mantissa * 256 = x.toInt * 10 ^ d.places)

/-! ### The activation sequencer (44_activation_sequencer.md) -/

/-- ACT_STATE becomes Activated only by a validated status response whose nibble is 3, and TimedOut only
with the deadline reached, both only while ACTIVATE runs (R165, R174, R175, R177, R181). -/
def Obligations.ActivationEndsOnlyAsTheSpecSays : Prop :=
  ∀ s t : State, step s = .next t → t.regs.actState ≠ s.regs.actState →
    (t.regs.actState = .activated →
      s.ctl.phase = .aPrx ∧ s.runs 0x03#8 = true ∧ parseActivationAck t.ctl.rxBuf = .ok true) ∧
    (t.regs.actState = .timedOut →
      (s.ctl.phase = .aPrx ∨ s.ctl.phase = .aPwait) ∧ s.runs 0x03#8 = true ∧
      t.ctl.deadline ≤ t.ctl.now ∧ t.ctl.resp.fault = .activationTimedOut)

/-- A transaction of 0 ticks in which nothing arrives. -/
def instantDraw : Draw := ⟨0, true, [], 0, false⟩

/-- The transport's choices for a poll that takes 0 ticks and whose read returns `r`. -/
def pollDraws (r : Frame) : List Draw :=
  [instantDraw, ⟨0, true, r, r.length, false⟩]

/-- What the transport sees of polls that take 0 ticks, the first at tick `t`, one every `period` ticks. -/
def pollTrace (statusAddr : Half) (period : Nat) : Nat → List Frame → List TransportEvent
  | _, [] => []
  | t, r :: rs => .wrote (buildStatusReadRequest statusAddr) t :: .read 11 r t ::
      pollTrace statusAddr period (t + period) rs

/-- ACTIVATE stands at A_CLR, no other agent acts, and every transaction takes 0 ticks: two writes, then
the polls, whose reads return these responses. -/
structure ZeroDurationHandshake (s : State) (polls : List Frame) (rest : List Draw) : Prop where
  atClear : s.ctl.phase = .aClr
  running : s.latch.op = 0x03#8 ∧ s.latch.rsv = 0#24
  alone : s.hosts.inputs = []
  oracle : s.link.oracle = [instantDraw, instantDraw] ++ polls.flatMap pollDraws ++ rest

/-- The poll schedule law for a poll that succeeds after `fails`: Activated at `t0 + 2S + (j-1)P` after j
status reads, poll k written at `t0 + 2S + (k-1)P` (R181; draws: log 4; `resp` at DONE: logs 2, 3). -/
def Obligations.PollScheduleOfSuccess : Prop :=
  ∀ (s : State) (fails : List Frame) (good : Frame) (rest : List Draw),
    ZeroDurationHandshake s (fails ++ [good]) rest →
    (∀ r, r ∈ fails → r.length ≤ 11 ∧ parseActivationAck r ≠ .ok true) →
    good.length = 11 → parseActivationAck good = .ok true →
    (fails ≠ [] → 2 * s.params.tSettle + fails.length * s.params.tPoll < s.params.tActTimeout) →
    ∃ t, Sys2Proof.core.run (5 + 3 * fails.length + 2) s = .next t ∧
      t.regs = { s.regs with actState := .activated } ∧ t.ctl.phase = .done ∧
      t.ctl.resp = ⟨.none, 0#8, 0#12, 0#8, 0#16, 0x03#8⟩ ∧
      t.ctl.now = s.ctl.now + 2 * s.params.tSettle + fails.length * s.params.tPoll ∧
      t.link.trace = s.link.trace ++
        [.wrote buildClearRequest s.ctl.now, .wrote buildActivateRequest (s.ctl.now + s.params.tSettle),
          .discarded (s.ctl.now + 2 * s.params.tSettle)] ++
        pollTrace s.params.statusAddr s.params.tPoll (s.ctl.now + 2 * s.params.tSettle) (fails ++ [good])

/-- The poll schedule law when every poll fails and `2S < T`: `N = ceil((T - 2S) / P)` polls, and TimedOut
at exactly `t0 + T` (R181; draws: log 4; `resp` at DONE: logs 2, 3; TIMEOUT as part of the A_PWAIT step:
log 20). -/
def Obligations.PollScheduleOfTimeout : Prop :=
  ∀ (s : State) (fails : List Frame) (rest : List Draw),
    ZeroDurationHandshake s fails rest →
    (∀ r, r ∈ fails → r.length ≤ 11 ∧ parseActivationAck r ≠ .ok true) →
    0 < s.params.tPoll → 2 * s.params.tSettle < s.params.tActTimeout →
    fails.length = (s.params.tActTimeout - 2 * s.params.tSettle + (s.params.tPoll - 1)) / s.params.tPoll →
    ∃ t, Sys2Proof.core.run (5 + 3 * fails.length) s = .next t ∧
      t.regs = { s.regs with actState := .timedOut } ∧ t.ctl.phase = .done ∧
      t.ctl.resp = ⟨.activationTimedOut, 0#8, 0#12, 0#8, 0#16, 0x03#8⟩ ∧
      t.ctl.now = s.ctl.now + s.params.tActTimeout ∧
      t.link.trace = s.link.trace ++
        [.wrote buildClearRequest s.ctl.now, .wrote buildActivateRequest (s.ctl.now + s.params.tSettle),
          .discarded (s.ctl.now + 2 * s.params.tSettle)] ++
        pollTrace s.params.statusAddr s.params.tPoll (s.ctl.now + 2 * s.params.tSettle) fails

/-- With `2S >= T` the first poll still happens, and if it fails it is the only one: TimedOut at
`t0 + 2S`, and the transport has seen one status read (R181; draws: log 4; `resp` at DONE: logs 2, 3; TIMEOUT
as part of the A_PRX step: log 20). -/
def Obligations.LateFirstPollIsTheOnlyOne : Prop :=
  ∀ (s : State) (r : Frame) (rest : List Draw),
    ZeroDurationHandshake s [r] rest → r.length ≤ 11 → parseActivationAck r ≠ .ok true →
    s.params.tActTimeout ≤ 2 * s.params.tSettle →
    ∃ t, Sys2Proof.core.run 7 s = .next t ∧ t.regs = { s.regs with actState := .timedOut } ∧
      t.ctl.phase = .done ∧ t.ctl.resp = ⟨.activationTimedOut, 0#8, 0#12, 0#8, 0#16, 0x03#8⟩ ∧
      t.ctl.now = s.ctl.now + 2 * s.params.tSettle ∧
      t.link.trace = s.link.trace ++
        [.wrote buildClearRequest s.ctl.now, .wrote buildActivateRequest (s.ctl.now + s.params.tSettle),
          .discarded (s.ctl.now + 2 * s.params.tSettle)] ++
        pollTrace s.params.statusAddr s.params.tPoll (s.ctl.now + 2 * s.params.tSettle) [r]

/-! ### The whole machine -/

/-- The state after reset meets the invariant; the empty buffers and records are the model's (logs 6, 14). -/
def Obligations.ResetMeetsTheInvariant : Prop :=
  State.reset.Inv

/-- Every step keeps the invariant, whatever the inputs and the transport do: the control point fits the
request, the session and the activation; ACT_STATE is Reset without a session; the flags, results, buffers
and held requests stay in range; and the transport has seen builder frames only, in open sessions only,
each read directly after the write it answers. -/
def Obligations.EveryStepKeepsTheInvariant : Prop :=
  ∀ s t : State, s.Inv → step s = .next t → t.Inv

/-- From every state that meets the invariant the step answers a next state: no command, request, transport
answer or host can stop the machine. -/
def Obligations.TheMachineNeverStops : Prop :=
  ∀ s : State, s.Inv → ∃ t, step s = .next t

/-- Every accepted request gets exactly one response, unless a reset drops it: acceptances are the
responses delivered and the command running (30_encoding.md R80, 45_session_commands.md R192; the counts are
the model's records, logs 10, 14). -/
def Obligations.OneResponsePerAcceptance : Prop :=
  ∀ s t : State, s.Inv → step s = .next t → s.resetNext = false →
    t.hosts.arbitrations + s.hosts.responses.length + (if s.regs.busy then 1 else 0) =
      s.hosts.arbitrations + t.hosts.responses.length + (if t.regs.busy then 1 else 0)

/-- Every request but a legal ACTIVATE completes within four core steps of its acceptance if its read
returns, an illegal one with OP 0x03 too (45_session_commands.md R193, R201; the completion is one of the
steps: log 2). -/
def Obligations.CommandsCompleteWithinFourSteps : Prop :=
  ∀ s : State, s.Inv → s.ctl.phase = .exec → s.hosts.inputs = [] →
    s.latch.op ≠ 0x03#8 ∨ s.latch.rsv ≠ 0#24 →
    (s.link.transact [] (.closed 0)).draw.hang = false →
    ∃ n t, n ≤ 4 ∧ Sys2Proof.core.run n s = .next t ∧ t.ctl.phase = .idle ∧ t.regs.busy = false ∧
      ∃ x, t.hosts.responses = s.hosts.responses ++ [(s.ctl.requester, x)]
end

