-- ==== Sys2Proof/Laws/Codec.lean ====
section
/-! SUPPORT. Small lemmas of the CRC codec (41_crc_codec.md R110–R114): shifting zeros out is a plain shift,
folding a concatenation, the two bytes of a 16-bit number. -/

namespace Sys2Proof.Machine

@[simp] theorem crcShifts_zero (a : Half) : crcShifts 0 a = a := rfl

@[simp] theorem crcShifts_succ (n : Nat) (a : Half) : crcShifts (n + 1) a = crcShifts n (crcShift a) := rfl

theorem crcShift_of_even {a : Half} (h : a.getLsbD 0 = false) : crcShift a = a >>> 1 := by
  unfold crcShift
  rw [h]
  rfl

/-- While only zeros leave the accumulator, the iterations of R110 are a plain shift. -/
theorem crcShifts_of_zeros : ∀ (n : Nat) (a : Half), (∀ k, k < n → a.getLsbD k = false) →
    crcShifts n a = a >>> n
  | 0, a, _ => by simp
  | n + 1, a, h => by
    have shifted : ∀ k, k < n → (a >>> 1).getLsbD k = false := by
      intro k hk
      rw [BitVec.getLsbD_ushiftRight]
      exact h (1 + k) (by omega)
    rw [crcShifts_succ, crcShift_of_even (h 0 (by omega)), crcShifts_of_zeros n _ shifted]
    apply BitVec.eq_of_getLsbD_eq
    intro i _
    rw [BitVec.getLsbD_ushiftRight, BitVec.getLsbD_ushiftRight, BitVec.getLsbD_ushiftRight]
    congr 1
    omega

@[simp] theorem crc16_nil : crc16 [] = 0xFFFF#16 := rfl

/-- The CRC of a concatenation goes on from the CRC of its first part (R111). -/
theorem crc16_append (a b : Frame) : crc16 (a ++ b) = b.foldl crcStep (crc16 a) := by
  simp [crc16, List.foldl_append]

@[simp] theorem length_crcTrailer (c : Half) : (crcTrailer c).length = 2 := rfl

@[simp] theorem length_appendCRC (body : Frame) : (appendCRC body).length = body.length + 2 := by
  simp [appendCRC]

theorem getLsbD_loByte {c : Half} {i : Nat} (h : i < 8) : (loByte c).getLsbD i = c.getLsbD i := by
  simp [loByte, h]

theorem getLsbD_hiByte {c : Half} {i : Nat} (h : i < 8) : (hiByte c).getLsbD i = c.getLsbD (8 + i) := by
  simp [hiByte, h]

/-- A 16-bit number is its high byte followed by its low byte. -/
@[simp] theorem hiByte_append_loByte (c : Half) : hiByte c ++ loByte c = c := by
  apply BitVec.eq_of_getLsbD_eq
  intro i hi
  rw [BitVec.getLsbD_append]
  by_cases h : i < 8
  · rw [if_pos h, getLsbD_loByte h]
  · rw [if_neg h, getLsbD_hiByte (by omega)]
    congr 1
    omega

/-- The low byte of two bytes put together. -/
@[simp] theorem loByte_append (hi lo : Byte) : loByte (hi ++ lo) = lo := by
  apply BitVec.eq_of_getLsbD_eq
  intro i h
  rw [getLsbD_loByte h, BitVec.getLsbD_append, if_pos h]

/-- The high byte of two bytes put together. -/
@[simp] theorem hiByte_append (hi lo : Byte) : hiByte (hi ++ lo) = hi := by
  apply BitVec.eq_of_getLsbD_eq
  intro i h
  rw [getLsbD_hiByte h, BitVec.getLsbD_append, if_neg (by omega)]
  congr 1
  omega

end Sys2Proof.Machine
end

