-- ==== Sys2Proof/Laws/Decode.lean ====
section
/-! SUPPORT. Small lemmas of the request word (30_encoding.md R75) and of the decoder. -/

namespace Sys2Proof

open Machine

/-- Taking a request word apart gives the fields it was made of (R75). -/
@[simp] theorem Request.ofWord_toWord (r : Request) : Request.ofWord r.toWord = r := by
  obtain ⟨op, rsv, a0, a1, a2⟩ := r
  simp only [Request.ofWord, Request.toWord, Request.mk.injEq]
  refine ⟨?_, ?_, ?_, ?_, ?_⟩ <;> apply BitVec.eq_of_getLsbD_eq <;> intro i hi <;>
    simp only [BitVec.getLsbD_extractLsb', hi, decide_true, Bool.true_and, BitVec.getLsbD_append]
  · simp [hi]
  · rw [if_neg (by omega), if_pos (by omega)]; congr 1; omega
  · rw [if_neg (by omega), if_neg (by omega), if_pos (by omega)]; congr 1; omega
  · rw [if_neg (by omega), if_neg (by omega), if_neg (by omega), if_pos (by omega)]; congr 1; omega
  · rw [if_neg (by omega), if_neg (by omega), if_neg (by omega), if_neg (by omega)]; congr 1; omega

/-- What a request that decodes asks for: RSV is zero, and the opcode names the command (R76–R78). -/
theorem decodeRequest_ok {r : Request} {i : Instr} (h : decodeRequest r = .ok i) :
    r.rsv = 0#24 ∧
      ((r.op = 0x01#8 ∧ i = .openCmd) ∨ (r.op = 0x02#8 ∧ i = .closeCmd) ∨ (r.op = 0x03#8 ∧ i = .activate) ∨
        (r.op = 0x04#8 ∧ i = .setPosition r.a0 r.a1 r.a2) ∨ (r.op = 0x05#8 ∧ i = .getPosition) ∨
        (r.op = 0x06#8 ∧ i = .getCurrent) ∨ (r.op = 0x07#8 ∧ i = .getStatus) ∨
        (r.op = 0x10#8 ∧ i = .crcInit) ∨ (r.op = 0x11#8 ∧ i = .crcByte (r.a0.extractLsb' 0 8))) := by
  unfold decodeRequest at h
  split at h
  · cases h
  · rename_i hr
    refine ⟨by simpa using hr, ?_⟩
    (repeat' split at h) <;> simp_all

/-- The command of a request, given its opcode. -/
theorem decodeRequest_of_op {r : Request} (h : r.rsv = 0#24) :
    (r.op = 0x01#8 → decodeRequest r = .ok .openCmd) ∧
    (r.op = 0x02#8 → decodeRequest r = .ok .closeCmd) ∧
    (r.op = 0x03#8 → decodeRequest r = .ok .activate) ∧
    (r.op = 0x04#8 → decodeRequest r = .ok (.setPosition r.a0 r.a1 r.a2)) ∧
    (r.op = 0x05#8 → decodeRequest r = .ok .getPosition) ∧
    (r.op = 0x06#8 → decodeRequest r = .ok .getCurrent) ∧
    (r.op = 0x07#8 → decodeRequest r = .ok .getStatus) ∧
    (r.op = 0x10#8 → decodeRequest r = .ok .crcInit) ∧
    (r.op = 0x11#8 → decodeRequest r = .ok (.crcByte (r.a0.extractLsb' 0 8))) := by
  refine ⟨?_, ?_, ?_, ?_, ?_, ?_, ?_, ?_, ?_⟩ <;> intro h' <;> simp [decodeRequest, h, h']

@[simp] theorem length_frameOfNat (n w : Nat) : (frameOfNat n w).length = n := by
  induction n generalizing w with
  | zero => rfl
  | succ n ih => simp [frameOfNat, ih]

/-- A received frame decodes by its length alone (R88). -/
theorem decodeReceived_ok {f : Frame} {i : Instr} (h : decodeReceived f = .ok i) :
    (f.length = 8 ∧ i = .frameWriteAck f) ∨ (f.length = 11 ∧ i = .frameStatusResponse f) := by
  unfold decodeReceived at h
  split at h
  · exact .inl ⟨‹_›, by cases h; rfl⟩
  · split at h
    · exact .inr ⟨‹_›, by cases h; rfl⟩
    · cases h

end Sys2Proof
end

