-- ==== Sys2Proof/Laws/Frames.lean ====
section
/-! SUPPORT. The frames the block sends (42_frame_builder.md R128–R133): their lengths, what the decoder makes
of them, and that they are builder frames. -/

namespace Sys2Proof.Machine

@[simp] theorem length_buildClearRequest : buildClearRequest.length = 15 := by
  simp [buildClearRequest, buildWriteReq, writeHeader]

@[simp] theorem length_buildActivateRequest : buildActivateRequest.length = 15 := by
  simp [buildActivateRequest, buildWriteReq, writeHeader]

@[simp] theorem length_buildMotionBytes (p v f : Byte) : (buildMotionBytes p v f).length = 15 := by
  simp [buildMotionBytes, buildWriteReq, writeHeader]

@[simp] theorem length_buildMotionRequest (tie : RoundTie) (a0 a1 a2 : Word) :
    (buildMotionRequest tie a0 a1 a2).length = 15 := by
  simp [buildMotionRequest]

@[simp] theorem length_buildStatusReadRequest (addr : Half) : (buildStatusReadRequest addr).length = 8 := by
  simp [buildStatusReadRequest]

@[simp] theorem builtFrame_clear (addr : Half) : builtFrame addr buildClearRequest = true := by
  simp [builtFrame]

@[simp] theorem builtFrame_activate (addr : Half) : builtFrame addr buildActivateRequest = true := by
  simp [builtFrame]

@[simp] theorem builtFrame_statusRead (addr : Half) :
    builtFrame addr (buildStatusReadRequest addr) = true := by
  simp [builtFrame]

@[simp] theorem builtFrame_motion (addr : Half) (p v f : Byte) :
    builtFrame addr (buildMotionBytes p v f) = true := by
  have bytes : (buildMotionBytes p v f).getD 10 0#8 = p ∧ (buildMotionBytes p v f).getD 11 0#8 = v ∧
      (buildMotionBytes p v f).getD 12 0#8 = f := ⟨rfl, rfl, rfl⟩
  unfold builtFrame
  rw [bytes.1, bytes.2.1, bytes.2.2]
  simp

/-- The clear frame, byte by byte (30_encoding.md R83). -/
theorem buildClearRequest_eq : buildClearRequest = [0x09#8, 0x10#8, 0x03#8, 0xE8#8, 0x00#8, 0x03#8, 0x06#8,
    0x00#8, 0x00#8, 0x00#8, 0x00#8, 0x00#8, 0x00#8, 0x73#8, 0x30#8] := by
  decide +kernel

/-- The activate frame, byte by byte (30_encoding.md R84). -/
theorem buildActivateRequest_eq : buildActivateRequest = [0x09#8, 0x10#8, 0x03#8, 0xE8#8, 0x00#8, 0x03#8,
    0x06#8, 0x01#8, 0x00#8, 0x00#8, 0x00#8, 0x00#8, 0x00#8, 0x72#8, 0xE1#8] := by
  decide +kernel

/-- The header of every write request, byte by byte (30_encoding.md R81). -/
theorem writeHeader_eq : writeHeader = [0x09#8, 0x10#8, 0x03#8, 0xE8#8, 0x00#8, 0x03#8, 0x06#8] := by
  decide

/-- What a sent frame that decodes is made of (30_encoding.md R82–R85). -/
theorem decodeSent_ok {f : Frame} {i : Instr} (h : decodeSent f = .ok i) :
    (i = .frameClear ∧ f = buildClearRequest) ∨ (i = .frameActivate ∧ f = buildActivateRequest) ∨
    (∃ p v g crc, i = .frameMotion p v g crc ∧ f = motionFrame p v g crc) ∨
    (∃ addr crc, i = .frameStatusRead addr crc ∧ f = statusReadFrame addr crc) := by
  rw [buildClearRequest_eq, buildActivateRequest_eq]
  unfold decodeSent at h
  split at h
  · split at h
    · rename_i header
      unfold decodeWritePayload at h
      simp only [List.cons.injEq, and_true] at header
      obtain ⟨rfl, rfl, rfl, rfl, rfl, rfl, rfl⟩ := header
      (repeat' split at h) <;> cases h <;> simp_all [motionFrame, writeHeader_eq, motionAction, crcTrailer]
    · cases h
  · split at h
    · rename_i header
      simp only [List.cons.injEq, and_true] at header
      obtain ⟨rfl, rfl, rfl, rfl⟩ := header
      cases h
      refine .inr (.inr (.inr ⟨_, _, rfl, ?_⟩))
      have count : hiByte regCount = 0x00#8 ∧ loByte regCount = 0x03#8 := by decide
      simp [statusReadFrame, crcTrailer, devId, fcRead, count]
    · cases h
  · cases h

end Sys2Proof.Machine
end

