-- ==== Sys2Proof/Laws/Held.lean ====
section
/-! SUPPORT. The held requests (10_state.md R39): at most one per host, by rising host, and every operation
keeps that form. -/

namespace Sys2Proof.Machine

/-- The canonical form: hosts strictly rising. -/
abbrev Rising (xs : List (HostId × BitVec 128)) : Prop :=
  (xs.map Prod.fst).Pairwise (· < ·)

/-- A request in the list after `holdRequest` is the new one or was there. -/
theorem mem_holdRequest {h : HostId} {w : BitVec 128} {x : HostId × BitVec 128} :
    ∀ {xs : List (HostId × BitVec 128)}, x ∈ holdRequest h w xs → x = (h, w) ∨ x ∈ xs
  | [], hx => by simpa [holdRequest] using hx
  | (h', w') :: rest, hx => by
    unfold holdRequest at hx
    split at hx
    · simpa using hx
    · split at hx
      · exact .inr hx
      · rcases List.mem_cons.mp hx with rfl | hx
        · exact .inr (by simp)
        · rcases mem_holdRequest hx with rfl | hx
          · exact .inl rfl
          · exact .inr (by simp [hx])

/-- No held request is lost. -/
theorem mem_holdRequest_of_mem {h : HostId} {w : BitVec 128} {x : HostId × BitVec 128} :
    ∀ {xs : List (HostId × BitVec 128)}, x ∈ xs → x ∈ holdRequest h w xs
  | (h', w') :: rest, hx => by
    unfold holdRequest
    split
    · exact List.mem_cons_of_mem _ hx
    · split
      · exact hx
      · rcases List.mem_cons.mp hx with rfl | hx
        · simp
        · exact List.mem_cons_of_mem _ (mem_holdRequest_of_mem hx)

/-- Presenting a request keeps the canonical form. -/
theorem holdRequest_rising {h : HostId} {w : BitVec 128} :
    ∀ {xs : List (HostId × BitVec 128)}, Rising xs → Rising (holdRequest h w xs)
  | [], _ => by simp [holdRequest, Rising]
  | (h', w') :: rest, hx => by
    obtain ⟨head, tail⟩ := List.pairwise_cons.mp hx
    unfold holdRequest
    split
    · rename_i lt
      refine List.pairwise_cons.mpr ⟨?_, hx⟩
      intro y hy
      rcases List.mem_cons.mp hy with rfl | hy
      · exact lt
      · exact Nat.lt_trans lt (head y hy)
    · rename_i not_lt
      split
      · exact hx
      · rename_i not_eq
        refine List.pairwise_cons.mpr ⟨?_, holdRequest_rising tail⟩
        intro y hy
        obtain ⟨p, hp, rfl⟩ := List.mem_map.mp hy
        rcases mem_holdRequest hp with rfl | hp
        · exact Nat.lt_of_le_of_ne (Nat.le_of_not_lt not_lt) (Ne.symm not_eq)
        · exact head _ (List.mem_map_of_mem hp)

/-- Accepting a request keeps the canonical form. -/
theorem eraseIdx_rising {xs : List (HostId × BitVec 128)} (k : Nat) (h : Rising xs) :
    Rising (xs.eraseIdx k) :=
  h.sublist ((List.eraseIdx_sublist xs k).map Prod.fst)

end Sys2Proof.Machine
end

