-- ==== Sys2Proof/Laws/State.lean ====
section
/-! SUPPORT. One lemma per part of State per named update: what the update makes of it. All are true by
rfl and rewrite from left to right, so no later proof unfolds a record update. -/

namespace Sys2Proof.Machine

/-! ### goTo -/

@[simp] theorem goTo_params (p : Phase) (s : State) : (goTo p s).params = s.params := rfl
@[simp] theorem goTo_regs (p : Phase) (s : State) : (goTo p s).regs = s.regs := rfl
@[simp] theorem goTo_latch (p : Phase) (s : State) : (goTo p s).latch = s.latch := rfl
@[simp] theorem goTo_ctl (p : Phase) (s : State) : (goTo p s).ctl = { s.ctl with phase := p } := rfl
@[simp] theorem goTo_link (p : Phase) (s : State) : (goTo p s).link = s.link := rfl
@[simp] theorem goTo_hosts (p : Phase) (s : State) : (goTo p s).hosts = s.hosts := rfl

/-! ### setAct -/

@[simp] theorem setAct_params (a : ActState) (s : State) : (setAct a s).params = s.params := rfl
@[simp] theorem setAct_regs (a : ActState) (s : State) :
    (setAct a s).regs = { s.regs with actState := a } := rfl
@[simp] theorem setAct_latch (a : ActState) (s : State) : (setAct a s).latch = s.latch := rfl
@[simp] theorem setAct_ctl (a : ActState) (s : State) : (setAct a s).ctl = s.ctl := rfl
@[simp] theorem setAct_link (a : ActState) (s : State) : (setAct a s).link = s.link := rfl
@[simp] theorem setAct_hosts (a : ActState) (s : State) : (setAct a s).hosts = s.hosts := rfl

/-! ### setSession -/

@[simp] theorem setSession_params (b : Bool) (s : State) : (setSession b s).params = s.params := rfl
@[simp] theorem setSession_regs (b : Bool) (s : State) :
    (setSession b s).regs = { s.regs with sessionOpen := b, actState := .reset } := rfl
@[simp] theorem setSession_latch (b : Bool) (s : State) : (setSession b s).latch = s.latch := rfl
@[simp] theorem setSession_ctl (b : Bool) (s : State) : (setSession b s).ctl = s.ctl := rfl
@[simp] theorem setSession_link (b : Bool) (s : State) : (setSession b s).link = s.link := rfl
@[simp] theorem setSession_hosts (b : Bool) (s : State) : (setSession b s).hosts = s.hosts := rfl

/-! ### waitTicks -/

@[simp] theorem waitTicks_params (d : Nat) (s : State) : (waitTicks d s).params = s.params := rfl
@[simp] theorem waitTicks_regs (d : Nat) (s : State) : (waitTicks d s).regs = s.regs := rfl
@[simp] theorem waitTicks_latch (d : Nat) (s : State) : (waitTicks d s).latch = s.latch := rfl
@[simp] theorem waitTicks_ctl (d : Nat) (s : State) :
    (waitTicks d s).ctl = { s.ctl with now := s.ctl.now + d } := rfl
@[simp] theorem waitTicks_link (d : Nat) (s : State) : (waitTicks d s).link = s.link := rfl
@[simp] theorem waitTicks_hosts (d : Nat) (s : State) : (waitTicks d s).hosts = s.hosts := rfl

/-! ### respond -/

@[simp] theorem respond_params (r : Resp) (s : State) : (respond r s).params = s.params := rfl
@[simp] theorem respond_regs (r : Resp) (s : State) : (respond r s).regs = s.regs := rfl
@[simp] theorem respond_latch (r : Resp) (s : State) : (respond r s).latch = s.latch := rfl
@[simp] theorem respond_ctl (r : Resp) (s : State) :
    (respond r s).ctl = { s.ctl with resp := r, phase := .done } := rfl
@[simp] theorem respond_link (r : Resp) (s : State) : (respond r s).link = s.link := rfl
@[simp] theorem respond_hosts (r : Resp) (s : State) : (respond r s).hosts = s.hosts := rfl

/-! ### raiseFault -/

@[simp] theorem raiseFault_params (c : FaultCode) (s : State) : (raiseFault c s).params = s.params := rfl
@[simp] theorem raiseFault_regs (c : FaultCode) (s : State) : (raiseFault c s).regs = s.regs := rfl
@[simp] theorem raiseFault_latch (c : FaultCode) (s : State) : (raiseFault c s).latch = s.latch := rfl
@[simp] theorem raiseFault_ctl (c : FaultCode) (s : State) :
    (raiseFault c s).ctl = { s.ctl with resp := Resp.plain c s.latch.op, phase := .done } := rfl
@[simp] theorem raiseFault_link (c : FaultCode) (s : State) : (raiseFault c s).link = s.link := rfl
@[simp] theorem raiseFault_hosts (c : FaultCode) (s : State) : (raiseFault c s).hosts = s.hosts := rfl

/-! ### complete -/

@[simp] theorem complete_params (s : State) : (complete s).params = s.params := rfl
@[simp] theorem complete_regs (s : State) :
    (complete s).regs = { s.regs with lastFault := s.ctl.resp.fault, faultLog := logFault s.ctl.resp.fault s.regs.faultLog, busy := false } := rfl
@[simp] theorem complete_latch (s : State) : (complete s).latch = s.latch := rfl
@[simp] theorem complete_ctl (s : State) : (complete s).ctl = { s.ctl with phase := .idle } := rfl
@[simp] theorem complete_link (s : State) : (complete s).link = s.link := rfl
@[simp] theorem complete_hosts (s : State) :
    (complete s).hosts = { s.hosts with responses := s.hosts.responses ++ [(s.ctl.requester, responseWord s.regs.actState s.ctl.resp)] } := rfl

/-! ### txWrite -/

@[simp] theorem txWrite_params (f : Frame) (s : State) : (txWrite f s).params = s.params := rfl
@[simp] theorem txWrite_regs (f : Frame) (s : State) : (txWrite f s).regs = s.regs := rfl
@[simp] theorem txWrite_latch (f : Frame) (s : State) : (txWrite f s).latch = s.latch := rfl
@[simp] theorem txWrite_ctl (f : Frame) (s : State) :
    (txWrite f s).ctl = { s.ctl with txBuf := f, now := s.ctl.now + s.link.draw.dur } := rfl
@[simp] theorem txWrite_link (f : Frame) (s : State) :
    (txWrite f s).link = s.link.transact (s.link.pending ++ s.link.draw.arrive) (.wrote f s.ctl.now) := rfl
@[simp] theorem txWrite_hosts (f : Frame) (s : State) : (txWrite f s).hosts = s.hosts := rfl

/-! ### rxReadReturns -/

@[simp] theorem rxReadReturns_params (n : Nat) (r : Frame) (s : State) :
    (rxReadReturns n r s).params = s.params := rfl
@[simp] theorem rxReadReturns_regs (n : Nat) (r : Frame) (s : State) :
    (rxReadReturns n r s).regs = s.regs := rfl
@[simp] theorem rxReadReturns_latch (n : Nat) (r : Frame) (s : State) :
    (rxReadReturns n r s).latch = s.latch := rfl
@[simp] theorem rxReadReturns_ctl (n : Nat) (r : Frame) (s : State) :
    (rxReadReturns n r s).ctl = { s.ctl with rxBuf := r, rxLen := BitVec.ofNat 4 r.length, now := s.ctl.now + s.link.draw.dur } := rfl
@[simp] theorem rxReadReturns_link (n : Nat) (r : Frame) (s : State) :
    (rxReadReturns n r s).link = s.link.transact (s.link.pool.drop r.length) (.read n r s.ctl.now) := rfl
@[simp] theorem rxReadReturns_hosts (n : Nat) (r : Frame) (s : State) :
    (rxReadReturns n r s).hosts = s.hosts := rfl

/-! ### rxDiscard -/

@[simp] theorem rxDiscard_params (s : State) : (rxDiscard s).params = s.params := rfl
@[simp] theorem rxDiscard_regs (s : State) : (rxDiscard s).regs = s.regs := rfl
@[simp] theorem rxDiscard_latch (s : State) : (rxDiscard s).latch = s.latch := rfl
@[simp] theorem rxDiscard_ctl (s : State) : (rxDiscard s).ctl = s.ctl := rfl
@[simp] theorem rxDiscard_link (s : State) :
    (rxDiscard s).link = { s.link with pending := [], trace := s.link.trace ++ [.discarded s.ctl.now] } := rfl
@[simp] theorem rxDiscard_hosts (s : State) : (rxDiscard s).hosts = s.hosts := rfl

/-! ### tOpen -/

@[simp] theorem tOpen_params (s : State) : (tOpen s).params = s.params := rfl
@[simp] theorem tOpen_regs (s : State) : (tOpen s).regs = s.regs := rfl
@[simp] theorem tOpen_latch (s : State) : (tOpen s).latch = s.latch := rfl
@[simp] theorem tOpen_ctl (s : State) :
    (tOpen s).ctl = { s.ctl with now := s.ctl.now + s.link.draw.dur } := rfl
@[simp] theorem tOpen_link (s : State) :
    (tOpen s).link = s.link.transact (if s.link.draw.ok then s.link.draw.arrive else s.link.pending) (.opened s.link.draw.ok s.ctl.now) := rfl
@[simp] theorem tOpen_hosts (s : State) : (tOpen s).hosts = s.hosts := rfl

/-! ### tClose -/

@[simp] theorem tClose_params (s : State) : (tClose s).params = s.params := rfl
@[simp] theorem tClose_regs (s : State) : (tClose s).regs = s.regs := rfl
@[simp] theorem tClose_latch (s : State) : (tClose s).latch = s.latch := rfl
@[simp] theorem tClose_ctl (s : State) :
    (tClose s).ctl = { s.ctl with now := s.ctl.now + s.link.draw.dur } := rfl
@[simp] theorem tClose_link (s : State) :
    (tClose s).link = s.link.transact s.link.pending (.closed s.ctl.now) := rfl
@[simp] theorem tClose_hosts (s : State) : (tClose s).hosts = s.hosts := rfl

/-! ### buildMotion -/

@[simp] theorem buildMotion_params (a0 a1 a2 : Word) (s : State) :
    (buildMotion a0 a1 a2 s).params = s.params := rfl
@[simp] theorem buildMotion_regs (a0 a1 a2 : Word) (s : State) :
    (buildMotion a0 a1 a2 s).regs = { s.regs with motionEnc := motionBytes (buildMotionRequest s.params.roundTie a0 a1 a2) } := rfl
@[simp] theorem buildMotion_latch (a0 a1 a2 : Word) (s : State) :
    (buildMotion a0 a1 a2 s).latch = s.latch := rfl
@[simp] theorem buildMotion_ctl (a0 a1 a2 : Word) (s : State) :
    (buildMotion a0 a1 a2 s).ctl = { s.ctl with txBuf := buildMotionRequest s.params.roundTie a0 a1 a2 } := rfl
@[simp] theorem buildMotion_link (a0 a1 a2 : Word) (s : State) : (buildMotion a0 a1 a2 s).link = s.link := rfl
@[simp] theorem buildMotion_hosts (a0 a1 a2 : Word) (s : State) :
    (buildMotion a0 a1 a2 s).hosts = s.hosts := rfl

/-! ### accept -/

@[simp] theorem accept_params (h : HostId) (w : BitVec 128) (s : State) :
    (accept h w s).params = s.params := rfl
@[simp] theorem accept_regs (h : HostId) (w : BitVec 128) (s : State) :
    (accept h w s).regs = { s.regs with busy := true, lastOp := (Request.ofWord w).op } := rfl
@[simp] theorem accept_latch (h : HostId) (w : BitVec 128) (s : State) :
    (accept h w s).latch = Request.ofWord w := rfl
@[simp] theorem accept_ctl (h : HostId) (w : BitVec 128) (s : State) :
    (accept h w s).ctl = { s.ctl with requester := some h, phase := .exec } := rfl
@[simp] theorem accept_link (h : HostId) (w : BitVec 128) (s : State) : (accept h w s).link = s.link := rfl
@[simp] theorem accept_hosts (h : HostId) (w : BitVec 128) (s : State) : (accept h w s).hosts = s.hosts := rfl

/-! ### presentRequest -/

@[simp] theorem presentRequest_params (h : HostId) (w : BitVec 128) (s : State) :
    (presentRequest h w s).params = s.params := rfl
@[simp] theorem presentRequest_regs (h : HostId) (w : BitVec 128) (s : State) :
    (presentRequest h w s).regs = s.regs := rfl
@[simp] theorem presentRequest_latch (h : HostId) (w : BitVec 128) (s : State) :
    (presentRequest h w s).latch = s.latch := rfl
@[simp] theorem presentRequest_ctl (h : HostId) (w : BitVec 128) (s : State) :
    (presentRequest h w s).ctl = s.ctl := rfl
@[simp] theorem presentRequest_link (h : HostId) (w : BitVec 128) (s : State) :
    (presentRequest h w s).link = s.link := rfl
@[simp] theorem presentRequest_hosts (h : HostId) (w : BitVec 128) (s : State) :
    (presentRequest h w s).hosts = { s.hosts with held := holdRequest h w s.hosts.held } := rfl

/-! ### readBank -/

@[simp] theorem readBank_params (h : HostId) (idx : BitVec 4) (width : Nat) (s : State) :
    (readBank h idx width s).params = s.params := rfl
@[simp] theorem readBank_regs (h : HostId) (idx : BitVec 4) (width : Nat) (s : State) :
    (readBank h idx width s).regs = s.regs := rfl
@[simp] theorem readBank_latch (h : HostId) (idx : BitVec 4) (width : Nat) (s : State) :
    (readBank h idx width s).latch = s.latch := rfl
@[simp] theorem readBank_ctl (h : HostId) (idx : BitVec 4) (width : Nat) (s : State) :
    (readBank h idx width s).ctl = s.ctl := rfl
@[simp] theorem readBank_link (h : HostId) (idx : BitVec 4) (width : Nat) (s : State) :
    (readBank h idx width s).link = s.link := rfl
@[simp] theorem readBank_hosts (h : HostId) (idx : BitVec 4) (width : Nat) (s : State) :
    (readBank h idx width s).hosts = { s.hosts with bankReplies := s.hosts.bankReplies ++ [⟨h, idx, if width = 32 then some (bankWord s.regs idx) else none⟩] } := rfl

/-! ### arriveBytes -/

@[simp] theorem arriveBytes_params (bs : List Byte) (s : State) : (arriveBytes bs s).params = s.params := rfl
@[simp] theorem arriveBytes_regs (bs : List Byte) (s : State) : (arriveBytes bs s).regs = s.regs := rfl
@[simp] theorem arriveBytes_latch (bs : List Byte) (s : State) : (arriveBytes bs s).latch = s.latch := rfl
@[simp] theorem arriveBytes_ctl (bs : List Byte) (s : State) : (arriveBytes bs s).ctl = s.ctl := rfl
@[simp] theorem arriveBytes_link (bs : List Byte) (s : State) :
    (arriveBytes bs s).link = { s.link with pending := s.link.pending ++ bs } := rfl
@[simp] theorem arriveBytes_hosts (bs : List Byte) (s : State) : (arriveBytes bs s).hosts = s.hosts := rfl

/-! ### resetInput -/

@[simp] theorem resetInput_params (sent : Nat) (s : State) : (resetInput sent s).params = s.params := rfl
@[simp] theorem resetInput_regs (sent : Nat) (s : State) : (resetInput sent s).regs = Regs.reset := rfl
@[simp] theorem resetInput_latch (sent : Nat) (s : State) : (resetInput sent s).latch = Request.reset := rfl
@[simp] theorem resetInput_ctl (sent : Nat) (s : State) : (resetInput sent s).ctl = Ctl.reset := rfl
@[simp] theorem resetInput_link (sent : Nat) (s : State) :
    (resetInput sent s).link = { s.link with trace := s.link.trace ++ resetTrace sent s } := rfl
@[simp] theorem resetInput_hosts (sent : Nat) (s : State) :
    (resetInput sent s).hosts = { s.hosts with held := [] } := rfl

/-! ### State.withInputs -/

@[simp] theorem State.withInputs_params (es : List Event) (s : State) :
    (State.withInputs es s).params = s.params := rfl
@[simp] theorem State.withInputs_regs (es : List Event) (s : State) :
    (State.withInputs es s).regs = s.regs := rfl
@[simp] theorem State.withInputs_latch (es : List Event) (s : State) :
    (State.withInputs es s).latch = s.latch := rfl
@[simp] theorem State.withInputs_ctl (es : List Event) (s : State) :
    (State.withInputs es s).ctl = s.ctl := rfl
@[simp] theorem State.withInputs_link (es : List Event) (s : State) :
    (State.withInputs es s).link = s.link := rfl
@[simp] theorem State.withInputs_hosts (es : List Event) (s : State) :
    (State.withInputs es s).hosts = { s.hosts with inputs := es } := rfl

end Sys2Proof.Machine
end

