-- ==== Sys2Proof/Laws/Steps.lean ====
section
/-! SUPPORT. What each shared operation and each meaning can do, said once: if it answers a next state, that
state is one of these. Later proofs cite these lemmas and do not unfold the meanings. -/

namespace Sys2Proof.Machine

/-! ### The exchange commands -/

/-- An exchange command is one of the four. -/
theorem isExchange_cases {i : Instr} (h : isExchange i = true) :
    (∃ a0 a1 a2, i = .setPosition a0 a1 a2) ∨ i = .getPosition ∨ i = .getCurrent ∨ i = .getStatus := by
  cases i with
  | setPosition a0 a1 a2 => exact .inl ⟨a0, a1, a2, rfl⟩
  | getPosition => exact .inr (.inl rfl)
  | getCurrent => exact .inr (.inr (.inl rfl))
  | getStatus => exact .inr (.inr (.inr rfl))
  | _ => exact nomatch h

/-! ### Shared operations -/

/-- The gates either raise, in their order, or let the command go on. -/
theorem ifActivated_cases (k : State → State) (s : State) :
    (s.regs.sessionOpen = false ∧ ifActivated k s = raiseFault .sessionClosed s) ∨
    (s.regs.sessionOpen = true ∧ s.regs.actState ≠ .activated ∧
      ifActivated k s = raiseFault .notActivated s) ∨
    (s.regs.sessionOpen = true ∧ s.regs.actState = .activated ∧ ifActivated k s = k s) := by
  unfold ifActivated
  by_cases h : s.regs.sessionOpen = false
  · exact .inl ⟨h, by simp [h]⟩
  · by_cases h' : s.regs.actState = .activated
    · exact .inr (.inr ⟨by simpa using h, h', by simp [h, h']⟩)
    · exact .inr (.inl ⟨by simpa using h, h', by simp [h, h']⟩)

/-- A read either never returns, or returns what the transport chose. -/
theorem rxReadThen_cases (n : Nat) (k : Frame → State → State) (s : State) :
    (s.link.draw.hang = true ∧ rxReadThen n k s = s) ∨
    (s.link.draw.hang = false ∧
      rxReadThen n k s = k (s.link.readBytes n) (rxReadReturns n (s.link.readBytes n) s)) := by
  unfold rxReadThen
  by_cases h : s.link.draw.hang = true
  · exact .inl ⟨h, by simp [h]⟩
  · exact .inr ⟨by simpa using h, by simp [h]⟩

/-- A read returns at most what it asked for (20_memory.md R57). -/
theorem length_readBytes_le (l : Link) (n : Nat) : (l.readBytes n).length ≤ n := by
  simp only [Link.readBytes, List.length_take]
  omega

/-- An acknowledgement ends the command with its parser's fault or with success. -/
theorem onWriteAck_cases (r : Frame) (s : State) :
    (∃ c, parseWriteAck r = .error c ∧ onWriteAck r s = raiseFault c s) ∨
    (parseWriteAck r = .ok () ∧ onWriteAck r s = respond (Resp.plain .none 0x04#8) s) := by
  unfold onWriteAck
  cases h : parseWriteAck r with
  | error c => exact .inl ⟨c, rfl, rfl⟩
  | ok u => exact .inr ⟨rfl, rfl⟩

/-- A status response ends the command with its parser's fault or is kept. -/
theorem onStatus_cases (keep : StatusValue → State → State) (r : Frame) (s : State) :
    (∃ c, parseStatus r = .error c ∧ onStatus keep r s = raiseFault c s) ∨
    (∃ v, parseStatus r = .ok v ∧ onStatus keep r s = keep v s) := by
  unfold onStatus
  cases h : parseStatus r with
  | error c => exact .inl ⟨c, rfl, rfl⟩
  | ok v => exact .inr ⟨v, rfl, rfl⟩

/-- A poll ends the handshake as Activated or as TimedOut, or the loop waits. -/
theorem onPoll_cases (r : Frame) (s : State) :
    (parseActivationAck r = .ok true ∧
      onPoll r s = respond (Resp.plain .none 0x03#8) (setAct .activated s)) ∨
    (parseActivationAck r ≠ .ok true ∧ s.ctl.deadline ≤ s.ctl.now ∧ onPoll r s = timeOut s) ∨
    (parseActivationAck r ≠ .ok true ∧ s.ctl.now < s.ctl.deadline ∧ onPoll r s = goTo .aPwait s) := by
  unfold onPoll
  by_cases h : parseActivationAck r = .ok true
  · exact .inl ⟨h, by simp [h]⟩
  · by_cases h' : s.ctl.now ≥ s.ctl.deadline
    · exact .inr (.inl ⟨h, h', by simp [h, h']⟩)
    · exact .inr (.inr ⟨h, by omega, by simp [h, h']⟩)

/-- The poll wait ends the handshake at the deadline, or the next poll starts. -/
theorem afterPollWait_cases (s : State) :
    (s.ctl.deadline ≤ s.ctl.now ∧ afterPollWait s = timeOut s) ∨
    (s.ctl.now < s.ctl.deadline ∧ afterPollWait s = goTo .aPtx s) := by
  unfold afterPollWait
  by_cases h : s.ctl.now ≥ s.ctl.deadline
  · exact .inl ⟨h, by simp [h]⟩
  · exact .inr ⟨by omega, by simp [h]⟩

/-- The idle core waits when nothing is held, and else accepts a held request. -/
theorem acceptNext_cases (s : State) :
    acceptNext s = s ∨
    ∃ k h w, s.hosts.held[k]? = some (h, w) ∧
      acceptNext s = accept h w { s with hosts := { s.hosts with
        held := s.hosts.held.eraseIdx k
        picks := s.hosts.picks.tail
        arbitrations := s.hosts.arbitrations + 1 } } := by
  unfold acceptNext
  cases h : s.hosts.held[s.hosts.pick % s.hosts.held.length]? with
  | none => exact .inl rfl
  | some x => exact .inr ⟨_, x.1, x.2, h, rfl⟩

/-! ### Parsers -/

theorem validate_ok {r : Frame} {n : Nat} (h : validate r n = .ok ()) :
    n ≤ r.length ∧ checkCRC r = true := by
  unfold validate at h
  split at h
  · cases h
  · split at h
    · exact ⟨by omega, ‹_›⟩
    · cases h

/-- What `parseStatus` decodes: bytes 7, 8 and 3 of a frame that validates (43_frame_parser.md R148). -/
theorem parseStatus_ok {r : Frame} {v : StatusValue} (h : parseStatus r = .ok v) :
    validate r statusLen = .ok () ∧
      v = ⟨r.getD posOff 0#8, (r.getD curOff 0#8).setWidth 12 * curScale, r.getD staOff 0#8⟩ := by
  unfold parseStatus at h
  split at h
  · cases h
  · rename_i hv
    exact ⟨hv, by cases h; rfl⟩

/-- The decoded current is ten times a byte, without overflow (00_scope.md R11, R15). -/
theorem toNat_current (b : Byte) : (b.setWidth 12 * curScale).toNat = 10 * b.toNat := by
  have := b.isLt
  simp [curScale, BitVec.toNat_mul]
  omega

/-! ### The meanings -/

theorem execCrcInit_next {s t : State} (h : execCrcInit s = .next t) :
    (s.ctl.phase = .exec ∧ t = respondCrc 0xFFFF#16 0x10#8 s) ∨ (s.ctl.phase = .done ∧ t = complete s) := by
  unfold execCrcInit at h
  split at h <;> cases h <;> simp [*]

theorem execCrcByte_next {b : Byte} {s t : State} (h : execCrcByte b s = .next t) :
    (s.ctl.phase = .exec ∧ t = respondCrc (crcStep s.regs.crcAcc b) 0x11#8 s) ∨
    (s.ctl.phase = .done ∧ t = complete s) := by
  unfold execCrcByte at h
  split at h <;> cases h <;> simp [*]

theorem execOpen_next {s t : State} (h : execOpen s = .next t) :
    (s.ctl.phase = .exec ∧ t = openCheck s) ∨ (s.ctl.phase = .oOpen ∧ t = openTransport s) ∨
    (s.ctl.phase = .done ∧ t = complete s) := by
  unfold execOpen at h
  split at h <;> cases h <;> simp [*]

theorem execClose_next {s t : State} (h : execClose s = .next t) :
    (s.ctl.phase = .exec ∧ t = closeCheck s) ∨ (s.ctl.phase = .oClose ∧ t = closeTransport s) ∨
    (s.ctl.phase = .done ∧ t = complete s) := by
  unfold execClose at h
  split at h <;> cases h <;> simp [*]

theorem execSetPosition_next {a0 a1 a2 : Word} {s t : State} (h : execSetPosition a0 a1 a2 s = .next t) :
    (s.ctl.phase = .exec ∧ t = ifActivated (fun s => goTo .xTx (buildMotion a0 a1 a2 s)) s) ∨
    (s.ctl.phase = .xTx ∧ t = goTo .xRx (txWrite s.ctl.txBuf s)) ∨
    (s.ctl.phase = .xRx ∧ t = rxReadThen ackLen onWriteAck s) ∨
    (s.ctl.phase = .done ∧ t = complete s) := by
  unfold execSetPosition at h
  split at h <;> cases h <;> simp [*]

theorem statusExchange_next {keep : StatusValue → State → State} {s t : State}
    (h : statusExchange keep s = .next t) :
    (s.ctl.phase = .exec ∧ t = ifActivated (goTo .xTx) s) ∨
    (s.ctl.phase = .xTx ∧ t = goTo .xRx (txWrite (buildStatusReadRequest s.params.statusAddr) s)) ∨
    (s.ctl.phase = .xRx ∧ t = rxReadThen statusLen (onStatus keep) s) ∨
    (s.ctl.phase = .done ∧ t = complete s) := by
  unfold statusExchange at h
  split at h <;> cases h <;> simp [*]

theorem execActivate_next {s t : State} (h : execActivate s = .next t) :
    (s.ctl.phase = .exec ∧ t = startActivation s) ∨
    (s.ctl.phase = .aClr ∧ t = sendClear s) ∨
    (s.ctl.phase = .aSet1 ∧ t = goTo .aAct (waitTicks s.params.tSettle s)) ∨
    (s.ctl.phase = .aAct ∧ t = sendActivate s) ∨
    (s.ctl.phase = .aSet2 ∧ t = goTo .aDisc (waitTicks s.params.tSettle s)) ∨
    (s.ctl.phase = .aDisc ∧ t = goTo .aPtx (rxDiscard s)) ∨
    (s.ctl.phase = .aPtx ∧ t = sendPoll (buildStatusReadRequest s.params.statusAddr) s) ∨
    (s.ctl.phase = .aPrx ∧ t = rxReadThen statusLen onPoll s) ∨
    (s.ctl.phase = .aPwait ∧ t = afterPollWait (waitTicks (pollWait s) s)) ∨
    (s.ctl.phase = .done ∧ t = complete s) := by
  unfold execActivate at h
  split at h <;> cases h <;> simp [*]

/-- A request that is no command raises ILLEGAL_COMMAND and completes (45_session_commands.md R205). -/
theorem runIllegal_next {s t : State} (h : runIllegal s = .next t) :
    (s.ctl.phase = .exec ∧ t = raiseFault .illegalCommand s) ∨ (s.ctl.phase = .done ∧ t = complete s) := by
  unfold runIllegal at h
  split at h <;> cases h <;> simp [*]

/-! ### The wire frames -/

/-- The status commands are the ones that keep something of a response (45_session_commands.md R197–R199). -/
theorem keepOf_some {op : Byte} {keep : StatusValue → State → State} (h : keepOf op = some keep) :
    (op = 0x05#8 ∧ keep = keepPosition) ∨ (op = 0x06#8 ∧ keep = keepCurrent) ∨
    (op = 0x07#8 ∧ keep = keepStatus) := by
  unfold keepOf at h
  (repeat' split at h) <;> simp_all

theorem execFrameClear_next {s t : State} (h : execFrameClear s = .next t) :
    s.ctl.phase = .aClr ∧ t = sendClear s := by
  unfold execFrameClear at h
  split at h <;> cases h
  exact ⟨‹_›, rfl⟩

theorem execFrameActivate_next {s t : State} (h : execFrameActivate s = .next t) :
    s.ctl.phase = .aAct ∧ t = sendActivate s := by
  unfold execFrameActivate at h
  split at h <;> cases h
  exact ⟨‹_›, rfl⟩

theorem execFrameMotion_next {p v f : Byte} {crc : Half} {s t : State}
    (h : execFrameMotion p v f crc s = .next t) :
    s.ctl.phase = .xTx ∧ s.latch.op = 0x04#8 ∧ t = goTo .xRx (txWrite (motionFrame p v f crc) s) := by
  unfold execFrameMotion at h
  (repeat' split at h) <;> cases h
  exact ⟨‹_›, ‹_›, rfl⟩

theorem execFrameStatusRead_next {addr crc : Half} {s t : State}
    (h : execFrameStatusRead addr crc s = .next t) :
    (s.ctl.phase = .aPtx ∧ t = sendPoll (statusReadFrame addr crc) s) ∨
    (s.ctl.phase = .xTx ∧ (∃ keep, keepOf s.latch.op = some keep) ∧
      t = goTo .xRx (txWrite (statusReadFrame addr crc) s)) := by
  unfold execFrameStatusRead at h
  (repeat' split at h) <;> cases h
  · exact .inl ⟨‹_›, rfl⟩
  · exact .inr ⟨‹_›, ⟨_, ‹_›⟩, rfl⟩

theorem execFrameWriteAck_next {bytes : Frame} {s t : State} (h : execFrameWriteAck bytes s = .next t) :
    s.ctl.phase = .xRx ∧ s.latch.op = 0x04#8 ∧ t = onWriteAck bytes (rxReadReturns ackLen bytes s) := by
  unfold execFrameWriteAck at h
  (repeat' split at h) <;> cases h
  exact ⟨‹_›, ‹_›, rfl⟩

theorem execFrameStatusResponse_next {bytes : Frame} {s t : State}
    (h : execFrameStatusResponse bytes s = .next t) :
    (s.ctl.phase = .aPrx ∧ t = onPoll bytes (rxReadReturns statusLen bytes s)) ∨
    (s.ctl.phase = .xRx ∧ ∃ keep, keepOf s.latch.op = some keep ∧
      t = onStatus keep bytes (rxReadReturns statusLen bytes s)) := by
  unfold execFrameStatusResponse at h
  (repeat' split at h) <;> cases h
  · exact .inl ⟨‹_›, rfl⟩
  · exact .inr ⟨‹_›, _, ‹_›, rfl⟩

/-! ### The step -/

/-- A step of the core accepts, runs the latched request's command, or runs a request that is none. -/
theorem coreStep_next {s t : State} (h : coreStep s = .next t) :
    (s.ctl.phase = .idle ∧ t = acceptNext s) ∨
    (s.ctl.phase ≠ .idle ∧ ∃ i, decodeRequest s.latch = .ok i ∧ exec i s = .next t) ∨
    (s.ctl.phase ≠ .idle ∧ ∃ e, decodeRequest s.latch = .error e ∧ runIllegal s = .next t) := by
  unfold coreStep at h
  split at h
  · exact .inl ⟨‹_›, by cases h; rfl⟩
  · split at h
    · exact .inr (.inl ⟨‹_›, _, ‹_›, h⟩)
    · exact .inr (.inr ⟨‹_›, _, ‹_›, h⟩)

/-- A step of the machine is a core step, with or without a listed input, or a move of another agent. -/
theorem step_next {s t : State} (h : step s = .next t) :
    (s.hosts.inputs = [] ∧ coreStep s = .next t) ∨
    (∃ es, s.hosts.inputs = .core :: es ∧ coreStep (s.withInputs es) = .next t) ∨
    (∃ x w es, s.hosts.inputs = .present x w :: es ∧ t = presentRequest x w (s.withInputs es)) ∨
    (∃ x idx width es, s.hosts.inputs = .bankRead x idx width :: es ∧
      t = readBank x idx width (s.withInputs es)) ∨
    (∃ bs es, s.hosts.inputs = .arrive bs :: es ∧ t = arriveBytes bs (s.withInputs es)) ∨
    (∃ sent es, s.hosts.inputs = .reset sent :: es ∧ t = resetInput sent (s.withInputs es)) := by
  unfold step at h
  split at h
  · exact .inl ⟨‹_›, h⟩
  · rename_i e es he
    cases e with
    | core => exact .inr (.inl ⟨es, he, h⟩)
    | present x w => exact .inr (.inr (.inl ⟨x, w, es, he, by cases h; rfl⟩))
    | bankRead x idx width => exact .inr (.inr (.inr (.inl ⟨x, idx, width, es, he, by cases h; rfl⟩)))
    | arrive bs => exact .inr (.inr (.inr (.inr (.inl ⟨bs, es, he, by cases h; rfl⟩))))
    | reset sent => exact .inr (.inr (.inr (.inr (.inr ⟨sent, es, he, by cases h; rfl⟩))))

end Sys2Proof.Machine
end

