-- ==== Sys2Proof/Laws/Moves.lean ====
section
/-! SUPPORT. Everything one core step can do, said once: `CoreMove` has one constructor per control point and
command, and every next state of `coreStep` is one of them. A step of the machine is a core step or a move
of another agent that leaves the core alone (45_session_commands.md R191). -/

namespace Sys2Proof.Machine

/-- The moves of the core, with what holds where they are made. -/
inductive CoreMove (s : State) : State → Prop where
  | accept (phase : s.ctl.phase = .idle) : CoreMove s (acceptNext s)
  | complete (phase : s.ctl.phase = .done) : CoreMove s (complete s)
  | illegal (phase : s.ctl.phase = .exec) (e : DecodeError) (bad : decodeRequest s.latch = .error e) :
      CoreMove s (raiseFault .illegalCommand s)
  | sessionClosed (phase : s.ctl.phase = .exec) (closed : s.regs.sessionOpen = false) :
      CoreMove s (raiseFault .sessionClosed s)
  | notActivated (phase : s.ctl.phase = .exec) (opened : s.regs.sessionOpen = true)
      (act : s.regs.actState ≠ .activated) : CoreMove s (raiseFault .notActivated s)
  | openCheck (phase : s.ctl.phase = .exec) (run : s.runs 0x01#8 = true) : CoreMove s (openCheck s)
  | openTransport (phase : s.ctl.phase = .oOpen) (run : s.runs 0x01#8 = true) :
      CoreMove s (openTransport s)
  | closeCheck (phase : s.ctl.phase = .exec) (run : s.runs 0x02#8 = true) : CoreMove s (closeCheck s)
  | closeTransport (phase : s.ctl.phase = .oClose) (run : s.runs 0x02#8 = true) :
      CoreMove s (closeTransport s)
  | startActivation (phase : s.ctl.phase = .exec) (run : s.runs 0x03#8 = true)
      (opened : s.regs.sessionOpen = true) :
      CoreMove s (goTo .aClr (setAct .activating (setAct .reset s)))
  | sendClear (phase : s.ctl.phase = .aClr) (run : s.runs 0x03#8 = true) : CoreMove s (sendClear s)
  | settleClear (phase : s.ctl.phase = .aSet1) (run : s.runs 0x03#8 = true) :
      CoreMove s (goTo .aAct (waitTicks s.params.tSettle s))
  | sendActivate (phase : s.ctl.phase = .aAct) (run : s.runs 0x03#8 = true) : CoreMove s (sendActivate s)
  | settleActivate (phase : s.ctl.phase = .aSet2) (run : s.runs 0x03#8 = true) :
      CoreMove s (goTo .aDisc (waitTicks s.params.tSettle s))
  | discard (phase : s.ctl.phase = .aDisc) (run : s.runs 0x03#8 = true) :
      CoreMove s (goTo .aPtx (rxDiscard s))
  | sendPoll (phase : s.ctl.phase = .aPtx) (run : s.runs 0x03#8 = true) :
      CoreMove s (sendPoll (buildStatusReadRequest s.params.statusAddr) s)
  | readPoll (phase : s.ctl.phase = .aPrx) (run : s.runs 0x03#8 = true) :
      CoreMove s (rxReadThen statusLen onPoll s)
  | pollWait (phase : s.ctl.phase = .aPwait) (run : s.runs 0x03#8 = true) :
      CoreMove s (afterPollWait (waitTicks (pollWait s) s))
  | buildMotion (phase : s.ctl.phase = .exec) (run : s.runs 0x04#8 = true)
      (opened : s.regs.sessionOpen = true) (act : s.regs.actState = .activated) :
      CoreMove s (goTo .xTx (buildMotion s.latch.a0 s.latch.a1 s.latch.a2 s))
  | sendMotion (phase : s.ctl.phase = .xTx) (run : s.runs 0x04#8 = true) :
      CoreMove s (goTo .xRx (txWrite s.ctl.txBuf s))
  | readAck (phase : s.ctl.phase = .xRx) (run : s.runs 0x04#8 = true) :
      CoreMove s (rxReadThen ackLen onWriteAck s)
  | startStatus (phase : s.ctl.phase = .exec) (keep : StatusValue → State → State)
      (run : keepOf s.latch.op = some keep) (rsv : s.latch.rsv = 0#24)
      (opened : s.regs.sessionOpen = true) (act : s.regs.actState = .activated) : CoreMove s (goTo .xTx s)
  | sendStatus (phase : s.ctl.phase = .xTx) (keep : StatusValue → State → State)
      (run : keepOf s.latch.op = some keep) (rsv : s.latch.rsv = 0#24) :
      CoreMove s (goTo .xRx (txWrite (buildStatusReadRequest s.params.statusAddr) s))
  | readStatus (phase : s.ctl.phase = .xRx) (keep : StatusValue → State → State)
      (run : keepOf s.latch.op = some keep) (rsv : s.latch.rsv = 0#24) :
      CoreMove s (rxReadThen statusLen (onStatus keep) s)
  | crcInit (phase : s.ctl.phase = .exec) (run : s.runs 0x10#8 = true) :
      CoreMove s (respondCrc 0xFFFF#16 0x10#8 s)
  | crcByte (phase : s.ctl.phase = .exec) (run : s.runs 0x11#8 = true) :
      CoreMove s (respondCrc (crcStep s.regs.crcAcc (s.latch.a0.extractLsb' 0 8)) 0x11#8 s)

/-- The gates, as moves. -/
theorem CoreMove.ofGates {s : State} {k : State → State} (phase : s.ctl.phase = .exec)
    (go : s.regs.sessionOpen = true → s.regs.actState = .activated → CoreMove s (k s)) :
    CoreMove s (ifActivated k s) := by
  rcases ifActivated_cases k s with ⟨closed, e⟩ | ⟨opened, act, e⟩ | ⟨opened, act, e⟩ <;> rw [e]
  · exact .sessionClosed phase closed
  · exact .notActivated phase opened act
  · exact go opened act

/-- The steps of a status command, as moves. -/
theorem CoreMove.ofStatus {s t : State} {keep : StatusValue → State → State} (rsv : s.latch.rsv = 0#24)
    (run : keepOf s.latch.op = some keep) (h : statusExchange keep s = .next t) : CoreMove s t := by
  rcases statusExchange_next h with ⟨p, rfl⟩ | ⟨p, rfl⟩ | ⟨p, rfl⟩ | ⟨p, rfl⟩
  · exact .ofGates p (.startStatus p keep run rsv)
  · exact .sendStatus p keep run rsv
  · exact .readStatus p keep run rsv
  · exact .complete p

theorem runs_of_op {s : State} {op : Byte} (rsv : s.latch.rsv = 0#24) (h : s.latch.op = op) :
    s.runs op = true := by
  simp [State.runs, rsv, h]

/-- Every next state of a core step is a move. -/
theorem coreStep_move {s t : State} (h : coreStep s = .next t) : CoreMove s t := by
  rcases coreStep_next h with ⟨p, rfl⟩ | ⟨-, i, hd, hx⟩ | ⟨-, e, hd, hx⟩
  · exact .accept p
  · obtain ⟨rsv, hi⟩ := decodeRequest_ok hd
    rcases hi with ⟨op, rfl⟩ | ⟨op, rfl⟩ | ⟨op, rfl⟩ | ⟨op, rfl⟩ | ⟨op, rfl⟩ | ⟨op, rfl⟩ | ⟨op, rfl⟩ |
      ⟨op, rfl⟩ | ⟨op, rfl⟩
    · rcases execOpen_next hx with ⟨p, rfl⟩ | ⟨p, rfl⟩ | ⟨p, rfl⟩
      · exact .openCheck p (runs_of_op rsv op)
      · exact .openTransport p (runs_of_op rsv op)
      · exact .complete p
    · rcases execClose_next hx with ⟨p, rfl⟩ | ⟨p, rfl⟩ | ⟨p, rfl⟩
      · exact .closeCheck p (runs_of_op rsv op)
      · exact .closeTransport p (runs_of_op rsv op)
      · exact .complete p
    · have run := runs_of_op rsv op
      rcases execActivate_next hx with ⟨p, rfl⟩ | ⟨p, rfl⟩ | ⟨p, rfl⟩ | ⟨p, rfl⟩ | ⟨p, rfl⟩ | ⟨p, rfl⟩ |
        ⟨p, rfl⟩ | ⟨p, rfl⟩ | ⟨p, rfl⟩ | ⟨p, rfl⟩
      · unfold Machine.startActivation
        split
        · exact .sessionClosed p ‹_›
        · exact .startActivation p run (by simpa using ‹¬s.regs.sessionOpen = false›)
      · exact .sendClear p run
      · exact .settleClear p run
      · exact .sendActivate p run
      · exact .settleActivate p run
      · exact .discard p run
      · exact .sendPoll p run
      · exact .readPoll p run
      · exact .pollWait p run
      · exact .complete p
    · have run := runs_of_op rsv op
      rcases execSetPosition_next hx with ⟨p, rfl⟩ | ⟨p, rfl⟩ | ⟨p, rfl⟩ | ⟨p, rfl⟩
      · exact .ofGates p (.buildMotion p run)
      · exact .sendMotion p run
      · exact .readAck p run
      · exact .complete p
    · exact .ofStatus rsv (by simp [keepOf, op]) hx
    · exact .ofStatus rsv (by simp [keepOf, op]) hx
    · exact .ofStatus rsv (by simp [keepOf, op]) hx
    · rcases execCrcInit_next hx with ⟨p, rfl⟩ | ⟨p, rfl⟩
      · exact .crcInit p (runs_of_op rsv op)
      · exact .complete p
    · rcases execCrcByte_next hx with ⟨p, rfl⟩ | ⟨p, rfl⟩
      · exact .crcByte p (runs_of_op rsv op)
      · exact .complete p
  · rcases runIllegal_next hx with ⟨p, rfl⟩ | ⟨p, rfl⟩
    · exact .illegal p e hd
    · exact .complete p

/-- What a move of a host or of the device leaves alone: everything of the core, and what is pending. -/
structure AgentMove (s t : State) : Prop where
  params : t.params = s.params
  regs : t.regs = s.regs
  latch : t.latch = s.latch
  ctl : t.ctl = s.ctl
  trace : t.link.trace = s.link.trace
  pending : ∃ bs, t.link.pending = s.link.pending ++ bs
  responses : t.hosts.responses = s.hosts.responses
  arbitrations : t.hosts.arbitrations = s.hosts.arbitrations

/-- A step without a reset input is a core step, perhaps of a listed `core` input, or another agent's. -/
theorem step_moves {s t : State} (h : step s = .next t) (noReset : s.resetNext = false) :
    CoreMove s t ∨ (∃ es, s.hosts.inputs = .core :: es ∧ CoreMove (s.withInputs es) t) ∨ AgentMove s t := by
  rcases step_next h with ⟨-, hx⟩ | ⟨es, he, hx⟩ | ⟨x, w, es, -, rfl⟩ | ⟨x, idx, width, es, -, rfl⟩ |
    ⟨bs, es, -, rfl⟩ | ⟨sent, es, he, -⟩
  · exact .inl (coreStep_move hx)
  · exact .inr (.inl ⟨es, he, coreStep_move hx⟩)
  · exact .inr (.inr ⟨rfl, rfl, rfl, rfl, rfl, ⟨[], (List.append_nil _).symm⟩, rfl, rfl⟩)
  · exact .inr (.inr ⟨rfl, rfl, rfl, rfl, rfl, ⟨[], (List.append_nil _).symm⟩, rfl, rfl⟩)
  · exact .inr (.inr ⟨rfl, rfl, rfl, rfl, rfl, ⟨bs, rfl⟩, rfl, rfl⟩)
  · simp [State.resetNext, he] at noReset

/-- A step of a running core without inputs is its command's `exec`. -/
theorem step_eq_exec {s : State} {i : Instr} (noInput : s.hosts.inputs = []) (running : s.ctl.phase ≠ .idle)
    (command : decodeRequest s.latch = .ok i) : step s = exec i s := by
  simp [step, noInput, coreStep, running, command]

/-- A run goes on from its first step. -/
theorem run_succ {s t : State} (k : Nat) (h : step s = .next t) :
    Sys2Proof.core.run (k + 1) s = Sys2Proof.core.run k t := by
  have h' : Sys2Proof.core.step s = .next t := h
  simp [Host.Core.run, h']

theorem run_zero (s : State) : Sys2Proof.core.run 0 s = .next s := rfl

end Sys2Proof.Machine
end

