-- ==== Sys2Proof/Laws/PerInstr.lean ====
section
/-! SUPPORT. Statements made once per instruction. `EncodedForm`: commands, and only they, are request words
(30_encoding.md R75); the frames the block sends are 8 or 15 bytes long and the ones it receives 8 or 11
(R82–R88). -/

namespace Sys2Proof.Laws.EncodedForm

open Sys2Proof.Machine

/-- The form of a well-formed instruction's encoding. -/
def Statement (i : Instr) : Prop :=
  i.wf = true →
    match encode i with
    | .request _ => isCommand i = true
    | .sent f => isCommand i = false ∧ (f.length = 8 ∨ f.length = 15)
    | .received f => isCommand i = false ∧ (f.length = 8 ∨ f.length = 11)

theorem openCmd : Statement .openCmd := fun _ => rfl

theorem closeCmd : Statement .closeCmd := fun _ => rfl

theorem activate : Statement .activate := fun _ => rfl

theorem setPosition (a0 a1 a2 : Word) : Statement (.setPosition a0 a1 a2) := fun _ => rfl

theorem getPosition : Statement .getPosition := fun _ => rfl

theorem getCurrent : Statement .getCurrent := fun _ => rfl

theorem getStatus : Statement .getStatus := fun _ => rfl

theorem crcInit : Statement .crcInit := fun _ => rfl

theorem crcByte (b : Byte) : Statement (.crcByte b) := fun _ => rfl

theorem frameClear : Statement .frameClear := fun _ => ⟨rfl, .inr rfl⟩

theorem frameActivate : Statement .frameActivate := fun _ => ⟨rfl, .inr rfl⟩

theorem frameMotion (p v f : Byte) (crc : Half) : Statement (.frameMotion p v f crc) := fun _ =>
  ⟨rfl, .inr rfl⟩

theorem frameStatusRead (addr crc : Half) : Statement (.frameStatusRead addr crc) := fun _ =>
  ⟨rfl, .inl rfl⟩

theorem frameWriteAck (bytes : Frame) : Statement (.frameWriteAck bytes) := fun h =>
  ⟨rfl, .inl (eq_of_beq h)⟩

theorem frameStatusResponse (bytes : Frame) : Statement (.frameStatusResponse bytes) := fun h =>
  ⟨rfl, .inr (eq_of_beq h)⟩

end Sys2Proof.Laws.EncodedForm
end

