-- ==== Sys2Proof/Laws/Trace.lean ====
section
/-! SUPPORT. What one more event makes of the transport's record (20_memory.md R59, R60, R66). -/

namespace Sys2Proof.Machine

theorem ownership_append (es : List TransportEvent) (e : TransportEvent) :
    ownership (es ++ [e]) = ownershipStep (ownership es) e := by
  simp [ownership]

theorem exchange_append (es : List TransportEvent) (e : TransportEvent) :
    exchange (es ++ [e]) = exchangeStep (exchange es) e := by
  simp [exchange]

theorem framesBuilt_append (addr : Half) (es fs : List TransportEvent) :
    framesBuilt addr (es ++ fs) = (framesBuilt addr es && framesBuilt addr fs) := by
  simp [framesBuilt, List.all_append]

/-- After a write only the read of its response may come. -/
theorem exchange_wrote {es : List TransportEvent} (f : Frame) (time : Nat)
    (h : (exchange es).isSome = true) :
    exchange (es ++ [.wrote f time]) = some (some (responseLength f)) := by
  obtain ⟨x, hx⟩ := Option.isSome_iff_exists.mp h
  cases x <;> simp [exchange_append, hx, exchangeStep]

/-- Every event but a read is allowed anywhere. -/
theorem exchange_isSome {es : List TransportEvent} {e : TransportEvent} (h : (exchange es).isSome = true)
    (noRead : ∀ n got time, e ≠ .read n got time) : (exchange (es ++ [e])).isSome = true := by
  obtain ⟨x, hx⟩ := Option.isSome_iff_exists.mp h
  cases x <;> cases e <;> simp [exchange_append, hx, exchangeStep] <;> exact absurd rfl (noRead _ _ _)

end Sys2Proof.Machine
end

