-- ==== Sys2Proof/Machine/ProgramText.lean ====
section
/-! DEFINITION. The text of host programs (30_encoding.md R90, R91): from the characters of a program to its
lines, and to the inputs of the host that runs it. A blank, a tab or a carriage return separates words, a
comma separates operands, and `;` begins a comment. Log 22. -/

namespace Sys2Proof.Machine

/-- A character that only separates words. -/
def isBlank (c : Char) : Bool :=
  c == ' ' || c == '\t' || c == '\r'

/-- The characters without the blanks at both ends. -/
def trimBlanks (cs : List Char) : List Char :=
  ((cs.dropWhile isBlank).reverse.dropWhile isBlank).reverse

/-- The parts of a text between the separators `sep`; a text without one is one part. -/
def splitAtChar (sep : Char) : List Char → List (List Char)
  | [] => [[]]
  | c :: cs =>
    if c = sep then [] :: splitAtChar sep cs
    else
      match splitAtChar sep cs with
      | [] => [[c]]
      | part :: parts => (c :: part) :: parts

/-- The digits of R90's literals, in the order of their values, in both letter cases. -/
def digitAlphabets : List (List Char) :=
  ["0123456789ABCDEF".toList, "0123456789abcdef".toList]

/-- The value of a digit of a base up to 16: its place among the digits of that base. -/
def digitValue (base : Nat) (c : Char) : Option Nat :=
  digitAlphabets.findSome? fun digits => (digits.take base).idxOf? c

/-- The number that one or more digits spell. -/
def readDigits (base : Nat) (cs : List Char) : Option Nat :=
  if cs = [] then none
  else (cs.mapM (digitValue base)).map fun ds => ds.foldl (fun n d => base * n + d) 0

/-- A decimal literal without a sign: digits, and a fraction of one or more digits or none. -/
def readMagnitude (cs : List Char) : Option (Nat × Nat) :=
  match splitAtChar '.' cs with
  | [whole] => (readDigits 10 whole).map fun n => (n, 0)
  | [whole, frac] =>
    match readDigits 10 whole, readDigits 10 frac with
    | some _, some _ => (readDigits 10 (whole ++ frac)).map fun n => (n, frac.length)
    | _, _ => none
  | _ => none

/-- A decimal literal: an optional sign, digits, an optional fraction (R90). -/
def readDecimal (cs : List Char) : Option Decimal :=
  match cs with
  | '-' :: rest => (readMagnitude rest).map fun m => ⟨-(m.1 : Int), m.2⟩
  | '+' :: rest => (readMagnitude rest).map fun m => ⟨m.1, m.2⟩
  | _ => (readMagnitude cs).map fun m => ⟨m.1, m.2⟩

/-- A byte literal: `0x` and two hexadecimal digits, or decimal digits (R90). The range is checked by
`HostLine.toEvent`. -/
def readByte (cs : List Char) : Option Int :=
  match cs with
  | ['0', 'x', a, b] => (readDigits 16 [a, b]).map fun n => (n : Int)
  | _ => (readDigits 10 cs).map fun n => (n : Int)

/-- A bank index: decimal digits, 0–15 (R90). -/
def readIndex (cs : List Char) : Option (BitVec 4) :=
  match readDigits 10 cs with
  | some n => if n ≤ 15 then some (BitVec.ofNat 4 n) else none
  | none => none

/-- One 8-digit hexadecimal group of a raw request word. -/
def readGroup (cs : List Char) : Option Word :=
  if cs.length = 8 then (readDigits 16 cs).map (BitVec.ofNat 32) else none

/-- A raw request word `a2_a1_a0_w0` (R75, R90). -/
def readWord (cs : List Char) : Option (BitVec 128) :=
  match (splitAtChar '_' cs).map readGroup with
  | [some a2, some a1, some a0, some w0] => some (a2 ++ a1 ++ a0 ++ w0)
  | _ => none

/-- Three decimal operands. -/
def readThree (make : Decimal → Decimal → Decimal → HostLine) (args : List (List Char)) :
    Option HostLine :=
  match args.map readDecimal with
  | [some p, some v, some f] => some (make p v f)
  | _ => none

/-- One operand. -/
def readOne {α : Type} (read : List Char → Option α) (make : α → HostLine) (args : List (List Char)) :
    Option HostLine :=
  match args with
  | [a] => (read a).map make
  | _ => none

/-- The lines without operands. -/
def plainLines : List (List Char × HostLine) :=
  [("OPEN".toList, .openLine), ("CLOSE".toList, .closeLine), ("ACTIVATE".toList, .activate),
    ("GET_POSITION".toList, .getPosition), ("GET_CURRENT".toList, .getCurrent),
    ("GET_STATUS".toList, .getStatus), ("CRC_INIT".toList, .crcInit), ("START".toList, .start),
    ("RESTART".toList, .restart)]

/-- A line by its first word and its operands. -/
def readLine (word : List Char) (args : List (List Char)) : Option HostLine :=
  if args = [] then plainLines.lookup word
  else if word = "SET_POSITION".toList then readThree .setPosition args
  else if word = "SETPOS".toList then readThree .setpos args
  else if word = "CRC_BYTE".toList then readOne readByte .crcByte args
  else if word = "CRC_BYTES".toList then (args.mapM readByte).map .crcBytes
  else if word = "READ".toList then readOne readIndex .read args
  else if word = "WORD".toList then readOne readWord .word args
  else none

/-- One line of text: its program line, none of it if only blanks and a comment stand there. `none`: the
assembler refuses the text. -/
def parseLine (cs : List Char) : Option (List HostLine) :=
  let body := trimBlanks (cs.takeWhile (· != ';'))
  let rest := trimBlanks (body.dropWhile fun c => !isBlank c)
  if body = [] then some []
  else
    (readLine (body.takeWhile fun c => !isBlank c)
      (if rest = [] then [] else (splitAtChar ',' rest).map trimBlanks)).map fun l => [l]

/-- The inputs of the host `h` that runs a program, its lines in order. -/
def assembleText (h : HostId) (text : List Char) : Option (List Event) := do
  let lines ← (splitAtChar '\n' text).mapM parseLine
  let events ← lines.flatten.mapM (HostLine.assemble h)
  pure events.flatten

end Sys2Proof.Machine
end

