-- ==== Sys2Proof/Tests/Slice0.lean ====
section
/-! SUPPORT. The model's own tests: ill-formed terms that WellFormed refuses, one word per constructor
written out from the spec's encodings, one-step tests with the results of spec/95_test_vectors.md, and for
every statement with hypotheses a witness that meets them, clause by clause. -/

namespace Sys2Proof.Tests

open Machine

/-! ### States and frames -/

/-- The default parameters of 95_test_vectors.md. -/
def vectorParams : Params := ⟨0x07D0#16, 1, 10, 5, 100, .halfEven⟩

/-- The command with opcode `op` at control point `p`, the session open or not, the transport's next
choices `draws`, and what the transport has seen. -/
def running (op : Byte) (p : Phase) (isOpen : Bool) (act : ActState) (draws : List Draw)
    (trace : List TransportEvent := []) : State :=
  { State.reset with
    params := vectorParams
    regs := { Regs.reset with sessionOpen := isOpen, actState := act, busy := true, lastOp := op }
    latch := ⟨op, 0#24, 0#32, 0#32, 0#32⟩
    ctl := { Ctl.reset with phase := p, requester := some 0 }
    link := ⟨[], draws, 0, trace⟩ }

/-- The idle block with these inputs and held requests. -/
def idleWith (inputs : List Event) (held : List (HostId × BitVec 128)) : State :=
  { State.reset with params := vectorParams, hosts := { Hosts.reset with inputs := inputs, held := held } }

/-- The transport choice of a read that returns `f` in 0 ticks. -/
def reads (f : Frame) : Draw := ⟨0, true, f, f.length, false⟩

/-- A read that never returns. -/
def hangs : Draw := ⟨0, true, [], 0, true⟩

/-- `ACK` of 95_test_vectors.md (V-PAR-1). -/
def ack : Frame := [0x09#8, 0x10#8, 0x03#8, 0xE8#8, 0x00#8, 0x03#8, 0x01#8, 0x30#8]

/-- V-PAR-2: `ACK` with a wrong trailer. -/
def badAck : Frame := [0x09#8, 0x10#8, 0x03#8, 0xE8#8, 0x00#8, 0x03#8, 0x01#8, 0x31#8]

/-- V-PAR-8: a status response with the status byte 0x31. -/
def ready : Frame := [0x09#8, 0x03#8, 0x06#8, 0x31#8, 0x00#8, 0x00#8, 0x00#8, 0x00#8, 0x00#8, 0x42#8, 0x94#8]

/-- V-PAR-13: a status response with the status byte 0x11. -/
def notReady : Frame := [0x09#8, 0x03#8, 0x06#8, 0x11#8, 0x00#8, 0x00#8, 0x00#8, 0x00#8, 0x00#8, 0x45#8, 0xF4#8]

/-- V-PAR-23: position 127, current 420, status byte 0xF9. -/
def moving : Frame := [0x09#8, 0x03#8, 0x06#8, 0xF9#8, 0x00#8, 0x00#8, 0x00#8, 0x7F#8, 0x2A#8, 0xF3#8, 0x33#8]

/-- V-CMD-23: the same frame with a wrong trailer. -/
def corrupt : Frame := [0x09#8, 0x03#8, 0x06#8, 0xF9#8, 0x00#8, 0x00#8, 0x00#8, 0x7F#8, 0x2A#8, 0x73#8, 0x33#8]

/-- What `f` sees of a next state. -/
def after {α : Type} (f : State → α) : Host.Outcome State Fault Refusal → Option α
  | .next s => some (f s)
  | _ => none

/-- The last response word. -/
def lastResponse (s : State) : Option Nat :=
  s.hosts.responses.getLast?.map fun r => r.2.toNat

/-! ### Well-formedness: one ill-formed term for each check -/

theorem test_wf_motion_crc : (Instr.frameMotion 0x80#8 0x40#8 0x20#8 0x4259#16).wf = false := by
  decide +kernel

theorem test_wf_status_read_crc : (Instr.frameStatusRead 0x07D0#16 0x040E#16).wf = false := by
  decide +kernel

theorem test_wf_ack_length : (Instr.frameWriteAck (ack ++ [0x00#8])).wf = false := by decide

theorem test_wf_response_length : (Instr.frameStatusResponse (ready.take 10)).wf = false := by decide

/-! ### Decoding: one word per constructor, from 30_encoding.md R75–R77 and R82–R87 -/

theorem test_decode_open : decodeTableWord 128 0x01 = some .openCmd := by decide +kernel

theorem test_decode_close : decodeTableWord 128 0x02 = some .closeCmd := by decide +kernel

theorem test_decode_activate : decodeTableWord 128 0x03 = some .activate := by decide +kernel

/-- A0, A1 and A2 in bits [63:32], [95:64] and [127:96]. -/
theorem test_decode_set_position : decodeTableWord 128 0x00000280_FFFFFF00_00012C00_00000004 =
    some (.setPosition 0x00012C00#32 0xFFFFFF00#32 0x00000280#32) := by decide +kernel

theorem test_decode_get_position : decodeTableWord 128 0x05 = some .getPosition := by decide +kernel

theorem test_decode_get_current : decodeTableWord 128 0x06 = some .getCurrent := by decide +kernel

theorem test_decode_get_status : decodeTableWord 128 0x07 = some .getStatus := by decide +kernel

theorem test_decode_crc_init : decodeTableWord 128 0x10 = some .crcInit := by decide +kernel

/-- V-CRC-22: A0[31:8] is ignored. -/
theorem test_decode_crc_byte :
    decodeTableWord 128 0x00000000_00000000_FFFFFF5A_00000011 = some (.crcByte 0x5A#8) := by
  decide +kernel

/-- V-CMD-9, V-CMD-11: a reserved OP, and RSV not zero. -/
theorem test_decode_reserved :
    decodeTableWord 128 0x08 = none ∧ decodeTableWord 128 0x103 = none := by decide +kernel

theorem test_decode_frame_clear :
    decodeTableWord 120 0x091003E8000306_000000000000_7330 = some .frameClear := by decide +kernel

theorem test_decode_frame_activate :
    decodeTableWord 120 0x091003E8000306_010000000000_72E1 = some .frameActivate := by decide +kernel

theorem test_decode_frame_motion : decodeTableWord 120 0x091003E8000306_090000804020_4259 =
    some (.frameMotion 0x80#8 0x40#8 0x20#8 0x5942#16) := by decide +kernel

theorem test_decode_frame_status_read :
    decodeTableWord 64 0x090307D00003_040E = some (.frameStatusRead 0x07D0#16 0x0E04#16) := by
  decide +kernel

theorem test_decode_frame_write_ack :
    decodeTableWord 64 0x091003E80003_0130 = some (.frameWriteAck ack) := by decide +kernel

theorem test_decode_frame_status_response :
    decodeTableWord 88 0x090306310000000000_4294 = some (.frameStatusResponse ready) := by decide +kernel

/-! ### One step each -/

/-- V-CMD-1: `TOpen` succeeds in 3 ticks. -/
theorem test_open : after (fun t => (t.regs.sessionOpen, t.ctl.now, t.ctl.phase))
    (exec .openCmd (running 0x01#8 .oOpen false .reset [⟨3, true, [], 0, false⟩])) =
    some (true, 3, .done) := by decide +kernel

/-- V-CMD-7: `TOpen` fails; the response is completed in the next step. -/
theorem test_open_fails : after (fun t => (t.regs.sessionOpen, t.ctl.now, t.ctl.resp.fault))
    (exec .openCmd (running 0x01#8 .oOpen false .reset [⟨4, false, [], 0, false⟩])) =
    some (false, 4, .connectionFault) := by decide +kernel

/-- V-CMD-3: `TClose` in 2 ticks. -/
theorem test_close : after (fun t => (t.regs.sessionOpen, t.regs.actState, t.ctl.now))
    (exec .closeCmd (running 0x02#8 .oClose true .activated [⟨2, true, [], 0, false⟩])) =
    some (false, .reset, 2) := by decide +kernel

/-- V-ACT-3: the first poll finds the device ready. -/
theorem test_activate_ready : after (fun t => (t.regs.actState, t.ctl.phase))
    (exec .activate (running 0x03#8 .aPrx true .activating [reads ready])) =
    some (.activated, .done) := by decide +kernel

/-- V-ACT-8: the poll wait is cut to the deadline, and ends the command. -/
theorem test_activate_times_out :
    after (fun t => (t.regs.actState, t.ctl.now, t.ctl.resp.fault))
      (exec .activate { running 0x03#8 .aPwait true .activating [] with
        ctl := { Ctl.reset with phase := .aPwait, now := 12, deadline := 13 } }) =
    some (.timedOut, 13, .activationTimedOut) := by decide +kernel

/-- V-BLD-9: 300, -1 and 2.5. -/
theorem test_set_position_builds :
    after (fun t => (t.regs.motionEnc, t.ctl.txBuf.drop 10, t.ctl.phase))
      (exec (.setPosition 0x00012C00#32 0xFFFFFF00#32 0x00000280#32)
        (running 0x04#8 .exec true .activated [])) =
    some (0x0200FF#24, [0xFF#8, 0x00#8, 0x02#8, 0xC2#8, 0x58#8], .xTx) := by decide +kernel

/-- V-CMD-17: the acknowledgement's trailer is wrong. -/
theorem test_set_position_bad_ack : after (fun t => (t.ctl.resp.fault, t.regs.actState, t.ctl.rxLen))
    (exec (.setPosition 0#32 0#32 0#32) (running 0x04#8 .xRx true .activated [reads badAck])) =
    some (.checksumMismatch, .activated, 8#4) := by decide +kernel

/-- V-CMD-24: the foreign header is not checked. -/
theorem test_get_position : after (fun t => (t.regs.lastPos, t.ctl.resp.pos))
    (exec .getPosition (running 0x05#8 .xRx true .activated [reads [0x0A#8, 0x04#8, 0x06#8, 0x31#8, 0x00#8,
      0x00#8, 0x00#8, 0x55#8, 0x01#8, 0xE9#8, 0x12#8]])) = some (0x55#8, 0x55#8) := by decide +kernel

/-- V-CMD-20: 420 mA. -/
theorem test_get_current : after (fun t => (t.regs.lastCur, t.regs.lastPos, t.ctl.resp.cur))
    (exec .getCurrent (running 0x06#8 .xRx true .activated [reads moving])) =
    some (0x1A4#12, 0x00#8, 0x1A4#12) := by decide +kernel

/-- V-CMD-22: all three results. -/
theorem test_get_status : after (fun t => (t.regs.lastPos, t.regs.lastCur, t.regs.lastSta))
    (exec .getStatus (running 0x07#8 .xRx true .activated [reads moving])) =
    some (0x7F#8, 0x1A4#12, 0xF9#8) := by decide +kernel

/-- V-CMD-22: the response word of the completion step. -/
theorem test_get_status_completes : after lastResponse
    (exec .getStatus { running 0x07#8 .done true .activated [] with
      ctl := { Ctl.reset with phase := .done, resp := ⟨.none, 0x7F#8, 0x1A4#12, 0xF9#8, 0#16, 0x07#8⟩ } }) =
    some (some 0x070000F901A47F20) := by decide +kernel

/-- V-CRC-20. -/
theorem test_crc_init : after (fun t => (t.regs.crcAcc, t.ctl.resp.crc))
    (exec .crcInit { running 0x10#8 .exec false .reset [] with
      regs := { Regs.reset with crcAcc := 0x467F#16 } }) = some (0xFFFF#16, 0xFFFF#16) := by
  decide +kernel

/-- V-CRC-21. -/
theorem test_crc_byte : after (fun t => (t.regs.crcAcc, t.ctl.resp.crc))
    (exec (.crcByte 0x09#8) (running 0x11#8 .exec false .reset [])) = some (0x467F#16, 0x467F#16) := by
  decide +kernel

/-- V-ACT-1: CLR at tick 0 sets the deadline to 100. -/
theorem test_frame_clear : after (fun t => (t.ctl.deadline, t.ctl.phase, t.link.trace))
    (exec .frameClear (running 0x03#8 .aClr true .activating [instantDraw])) =
    some (100, .aSet1, [.wrote [0x09#8, 0x10#8, 0x03#8, 0xE8#8, 0x00#8, 0x03#8, 0x06#8, 0x00#8, 0x00#8,
      0x00#8, 0x00#8, 0x00#8, 0x00#8, 0x73#8, 0x30#8] 0]) := by decide +kernel

/-- V-BLD-2. -/
theorem test_frame_activate : after (fun t => (t.ctl.txBuf.drop 7, t.ctl.phase))
    (exec .frameActivate (running 0x03#8 .aAct true .activating [instantDraw])) =
    some ([0x01#8, 0x00#8, 0x00#8, 0x00#8, 0x00#8, 0x00#8, 0x72#8, 0xE1#8], .aSet2) := by decide +kernel

/-- V-CMD-15. -/
theorem test_frame_motion : after (fun t => (t.ctl.txBuf, t.ctl.phase))
    (exec (.frameMotion 0xFF#8 0xFF#8 0xFF#8 0x2942#16) (running 0x04#8 .xTx true .activated [instantDraw])) =
    some ([0x09#8, 0x10#8, 0x03#8, 0xE8#8, 0x00#8, 0x03#8, 0x06#8, 0x09#8, 0x00#8, 0x00#8, 0xFF#8, 0xFF#8,
      0xFF#8, 0x42#8, 0x29#8], .xRx) := by decide +kernel

/-- V-BLD-13. -/
theorem test_frame_status_read : after (fun t => (t.ctl.txBuf, t.ctl.phase))
    (exec (.frameStatusRead 0x07D1#16 0xCE55#16) (running 0x03#8 .aPtx true .activating [instantDraw])) =
    some ([0x09#8, 0x03#8, 0x07#8, 0xD1#8, 0x00#8, 0x03#8, 0x55#8, 0xCE#8], .aPrx) := by decide +kernel

/-- V-PAR-3: an acknowledgement whose body is all zero is accepted. -/
theorem test_frame_write_ack : after (fun t => (t.ctl.resp.fault, t.ctl.phase))
    (exec (.frameWriteAck [0x00#8, 0x00#8, 0x00#8, 0x00#8, 0x00#8, 0x00#8, 0x00#8, 0x1B#8])
      (running 0x04#8 .xRx true .activated [instantDraw])) = some (.none, .done) := by decide +kernel

/-- V-PAR-24: full scale. -/
theorem test_frame_status_response : after (fun t => (t.regs.lastPos, t.regs.lastCur, t.regs.lastSta))
    (exec (.frameStatusResponse [0x09#8, 0x03#8, 0x06#8, 0x39#8, 0x00#8, 0x00#8, 0x00#8, 0xFF#8, 0xFF#8,
      0x42#8, 0x6C#8]) (running 0x07#8 .xRx true .activated [instantDraw])) =
    some (0xFF#8, 2550#12, 0x39#8) := by decide +kernel

/-- V-CMD-8: OP 0x00 is an illegal command. -/
theorem test_illegal : after (fun t => (t.ctl.resp.fault, t.ctl.phase))
    (step (running 0x00#8 .exec false .reset [])) = some (.illegalCommand, .done) := by decide +kernel

/-- V-ACT-1, V-SES-2: bank entry 0 after the timeout, and during A_SET1. -/
theorem test_bank :
    bankWord { Regs.reset with sessionOpen := true, actState := .timedOut, lastFault := .activationTimedOut }
      0#4 = 0x5E#32 ∧
    bankWord (running 0x03#8 .aSet1 true .activating []).regs 0#4 = 0x7#32 := by decide +kernel

/-! ### Witnesses: encodings, codec, operands, frames -/

/-- A well-formed instruction of each conditional kind. -/
theorem test_witness_EveryInstructionRoundTrips :
    (Instr.frameMotion 0x80#8 0x40#8 0x20#8 0x5942#16).wf = true ∧
    (Instr.frameStatusRead 0x07D0#16 0x0E04#16).wf = true ∧
    (Instr.frameWriteAck ack).wf = true ∧ (Instr.frameStatusResponse ready).wf = true := by decide +kernel

/-- The two conditional clauses. -/
theorem test_witness_EncodedSentFramesAreBuilt :
    (Instr.frameMotion 0x00#8 0x00#8 0x00#8 0xA973#16).wf = true ∧
    (Instr.frameStatusRead 0xFFFF#16 0xA704#16).wf = true := by decide +kernel

theorem test_witness_CrcCommandsComputeCrc16 :
    (idleWith (crcInputs 7 [0x09#8, 0x10#8]) []).ctl.phase = .idle ∧
    (idleWith (crcInputs 7 [0x09#8, 0x10#8]) []).hosts.held = [] ∧
    (idleWith (crcInputs 7 [0x09#8, 0x10#8]) []).hosts.inputs = crcInputs 7 [0x09#8, 0x10#8] :=
  ⟨rfl, rfl, rfl⟩

theorem test_witness_CrcCommandsExecute : (running 0x10#8 .exec false .reset []).ctl.phase = .exec := rfl

theorem test_witness_CrcAccumulatorIsPrivate :
    Instr.getStatus ≠ .crcInit ∧ ∀ b, Instr.getStatus ≠ .crcByte b :=
  ⟨by decide, fun _ h => nomatch h⟩

/-- Ties at 0.5, at -0.5 and at 2.5, the first of them at the boundary 0 ≤ v. -/
theorem test_witness_RoundQIsNearest :
    (0x00000080#32).toInt % 256 = 128 ∧ 0 ≤ (0x00000080#32).toInt ∧
    (0xFFFFFF80#32).toInt % 256 = 128 ∧ (0xFFFFFF80#32).toInt < 0 ∧
    roundQ .halfAway 0x00000080#32 = 1 ∧ roundQ .halfAway 0xFFFFFF80#32 = -1 ∧
    roundQ .halfEven 0x00000280#32 = 2 := by decide

/-- Each range at its boundary: the greatest negative word, 255.5, and the ties at k = 0, 254 and 253. -/
theorem test_witness_ClampRoundIsClampedRounding :
    (0xFFFFFFFF#32).toInt < 0 ∧ 255 * 256 + 128 ≤ (0x0000FF80#32).toInt ∧
    (0x00000080#32).toInt = 256 * (0 : Nat) + 128 ∧ (0x0000FE80#32).toInt = 256 * (254 : Nat) + 128 ∧
    (0x0000FD80#32).toInt = 256 * (253 : Nat) + 128 ∧
    clampRound .halfEven 0x0000FE80#32 = 0xFE#8 ∧ clampRound .halfAway 0x0000FE80#32 = 0xFF#8 := by decide

theorem test_witness_BuiltFramesHaveTheirLayout : builtFrame 0x07D0#16 buildActivateRequest = true := by
  decide +kernel

/-- Lengths 7 and 8 about the boundary, with a wrong and with a right trailer. -/
theorem test_witness_ValidateChecksLengthThenCrc :
    (ack.take 7).length < 8 ∧ 8 ≤ badAck.length ∧ checkCRC badAck = false ∧ 8 ≤ ack.length ∧
    checkCRC ack = true := by decide +kernel

/-! ### Witnesses: commands and wire frames -/

theorem test_witness_OpenExecutes :
    (running 0x01#8 .exec true .reset []).regs.sessionOpen = true ∧
    (running 0x01#8 .exec false .reset []).regs.sessionOpen = false ∧
    (running 0x01#8 .exec false .reset []).ctl.phase = .exec ∧
    (running 0x01#8 .oOpen false .reset [instantDraw]).ctl.phase = .oOpen ∧
    (running 0x01#8 .oOpen false .reset [instantDraw]).link.draw.ok = true ∧
    (running 0x01#8 .oOpen false .reset [⟨4, false, [], 0, false⟩]).link.draw.ok = false := by decide

theorem test_witness_CloseExecutes :
    (running 0x02#8 .exec false .reset []).regs.sessionOpen = false ∧
    (running 0x02#8 .exec true .activated []).regs.sessionOpen = true ∧
    (running 0x02#8 .exec true .activated []).ctl.phase = .exec ∧
    (running 0x02#8 .oClose true .activated [instantDraw]).ctl.phase = .oClose := by decide

theorem test_witness_SetPositionExecutes :
    (running 0x04#8 .exec true .activated []).ctl.phase = .exec ∧
    (running 0x04#8 .exec true .activated []).regs.sessionOpen = true ∧
    (running 0x04#8 .exec true .activated []).regs.actState = .activated ∧
    (running 0x04#8 .xTx true .activated []).ctl.phase = .xTx ∧
    (running 0x04#8 .xRx true .activated [reads ack]).ctl.phase = .xRx ∧
    (running 0x04#8 .xRx true .activated [reads ack]).link.draw.hang = false ∧
    (running 0x04#8 .xRx true .activated [reads ack]).link.readBytes 8 = ack ∧
    parseWriteAck ack = .ok () := by decide +kernel

theorem test_witness_StatusCommandsExecute :
    (running 0x07#8 .exec true .activated []).ctl.phase = .exec ∧
    (running 0x07#8 .exec true .activated []).regs.sessionOpen = true ∧
    (running 0x07#8 .exec true .activated []).regs.actState = .activated ∧
    (running 0x06#8 .xTx true .activated []).ctl.phase = .xTx ∧
    (running 0x05#8 .xRx true .activated [reads moving]).ctl.phase = .xRx ∧
    (running 0x05#8 .xRx true .activated [reads moving]).link.draw.hang = false ∧
    (running 0x05#8 .xRx true .activated [reads moving]).link.readBytes 11 = moving ∧
    parseStatus moving = .ok ⟨0x7F#8, 420#12, 0xF9#8⟩ := by decide +kernel

/-- The response of V-SRC-9, with the bytes it is made of; the read is asked for exactly what it returns. -/
theorem test_witness_GetPositionRunsToCompletion :
    let d2 : Draw := reads (appendCRC [0x09#8, 0x03#8, 0x06#8, 0xB9#8, 0x00#8, 0x00#8, 0x00#8, 0xBD#8, 0x00#8])
    let s := running 0x05#8 .exec true .activated [instantDraw, d2]
    s.ctl.phase = .exec ∧ s.latch.op = 0x05#8 ∧ s.latch.rsv = 0#24 ∧ s.hosts.inputs = [] ∧
    s.regs.sessionOpen = true ∧ s.regs.actState = .activated ∧ s.link.oracle = instantDraw :: d2 :: [] ∧
    d2.hang = false ∧ 11 ≤ d2.count ∧
    (s.link.pending ++ instantDraw.arrive ++ d2.arrive).take 11 =
      appendCRC [0x09#8, 0x03#8, 0x06#8, 0xB9#8, 0x00#8, 0x00#8, 0x00#8, 0xBD#8, 0x00#8] := by
  decide +kernel

/-- The block waiting at A_PRX or A_PWAIT with the deadline at tick `d`. -/
def polling (p : Phase) (draws : List Draw) (d : Nat) : State :=
  { running 0x03#8 p true .activating draws with
    ctl := { Ctl.reset with phase := p, requester := some 0, deadline := d } }

/-- Every control point of the handshake; the failed poll one tick before the deadline, and the wait of 5
ticks that ends one tick before it. -/
theorem test_witness_ActivateExecutes :
    (running 0x03#8 .exec true .reset []).ctl.phase = .exec ∧
    (running 0x03#8 .exec true .reset []).regs.sessionOpen = true ∧
    (running 0x03#8 .aClr true .activating []).ctl.phase = .aClr ∧
    (running 0x03#8 .aSet1 true .activating []).ctl.phase = .aSet1 ∧
    (running 0x03#8 .aAct true .activating []).ctl.phase = .aAct ∧
    (running 0x03#8 .aSet2 true .activating []).ctl.phase = .aSet2 ∧
    (running 0x03#8 .aDisc true .activating []).ctl.phase = .aDisc ∧
    (running 0x03#8 .aPtx true .activating []).ctl.phase = .aPtx ∧
    ((polling .aPrx [reads ready] 1).ctl.phase = .aPrx ∧ (polling .aPrx [reads ready] 1).link.draw.hang = false ∧
      (polling .aPrx [reads ready] 1).link.readBytes 11 = ready ∧ parseActivationAck ready = .ok true) ∧
    ((polling .aPrx [reads notReady] 1).link.draw.hang = false ∧
      (polling .aPrx [reads notReady] 1).link.readBytes 11 = notReady ∧
      parseActivationAck notReady ≠ .ok true ∧
      (polling .aPrx [reads notReady] 1).ctl.now + (polling .aPrx [reads notReady] 1).link.draw.dur <
        (polling .aPrx [reads notReady] 1).ctl.deadline) ∧
    ((polling .aPwait [] 6).ctl.phase = .aPwait ∧
      (polling .aPwait [] 6).ctl.now + min (polling .aPwait [] 6).params.tPoll
        ((polling .aPwait [] 6).ctl.deadline - (polling .aPwait [] 6).ctl.now) <
        (polling .aPwait [] 6).ctl.deadline) := by decide +kernel

theorem test_witness_SentFramesExecute :
    (running 0x03#8 .aClr true .activating []).ctl.phase = .aClr ∧
    (running 0x03#8 .aAct true .activating []).ctl.phase = .aAct ∧
    ((Instr.frameMotion 0x80#8 0x40#8 0x20#8 0x5942#16).wf = true ∧
      (running 0x04#8 .xTx true .activated []).ctl.phase = .xTx ∧
      (running 0x04#8 .xTx true .activated []).latch.op = 0x04#8) ∧
    ((Instr.frameStatusRead 0x07D0#16 0x0E04#16).wf = true ∧
      (running 0x03#8 .aPtx true .activating []).ctl.phase = .aPtx) ∧
    (running 0x05#8 .xTx true .activated []).latch.op = 0x05#8 ∧
    (running 0x06#8 .xTx true .activated []).latch.op = 0x06#8 ∧
    (running 0x07#8 .xTx true .activated []).latch.op = 0x07#8 := by decide +kernel

theorem test_witness_ReceivedFramesExecute :
    (ack.length = 8 ∧ checkCRC ack = true ∧ (running 0x04#8 .xRx true .activated []).ctl.phase = .xRx ∧
      (running 0x04#8 .xRx true .activated []).latch.op = 0x04#8) ∧
    (moving.length = 11 ∧ parseStatus moving = .ok ⟨0x7F#8, 420#12, 0xF9#8⟩ ∧
      (running 0x05#8 .xRx true .activated []).latch.op = 0x05#8 ∧
      (running 0x06#8 .xRx true .activated []).latch.op = 0x06#8 ∧
      (running 0x07#8 .xRx true .activated []).latch.op = 0x07#8) ∧
    (ready.length = 11 ∧ parseActivationAck ready = .ok true ∧ (polling .aPrx [] 1).ctl.phase = .aPrx) := by
  decide +kernel

theorem test_witness_StepRunsTheWireFrame :
    (running 0x03#8 .aClr true .activating []).hosts.inputs = [] ∧
    (running 0x03#8 .aClr true .activating []).latch.rsv = 0#24 ∧
    (running 0x03#8 .aClr true .activating []).latch.op = 0x03#8 ∧
    (running 0x03#8 .aAct true .activating []).ctl.phase = .aAct ∧
    (Instr.frameStatusRead (running 0x03#8 .aPtx true .activating []).params.statusAddr 0x0E04#16).wf = true ∧
    (running 0x06#8 .xTx true .activated []).ctl.phase = .xTx ∧
    ((Instr.frameMotion 0x80#8 0x40#8 0x20#8 0x5942#16).wf = true ∧
      ({ running 0x04#8 .xTx true .activated [] with
        ctl := { Ctl.reset with phase := .xTx, txBuf := buildMotionBytes 0x80#8 0x40#8 0x20#8 } } :
        State).ctl.txBuf = buildMotionBytes 0x80#8 0x40#8 0x20#8) ∧
    ((running 0x04#8 .xRx true .activated [reads ack]).link.draw.hang = false ∧
      (running 0x04#8 .xRx true .activated [reads ack]).link.readBytes 8 = ack ∧ ack.length = 8) ∧
    ((running 0x06#8 .xRx true .activated [reads moving]).link.draw.hang = false ∧
      (running 0x06#8 .xRx true .activated [reads moving]).link.readBytes 11 = moving ∧ moving.length = 11) ∧
    ((polling .aPrx [reads ready] 1).latch.op = 0x03#8 ∧ (polling .aPrx [reads ready] 1).link.draw.hang = false ∧
      (polling .aPrx [reads ready] 1).link.readBytes 11 = ready ∧ ready.length = 11) := by decide +kernel

/-! ### Witnesses: the step, responses and faults -/

theorem test_witness_StepRunsTheLatchedCommand :
    (running 0x10#8 .exec false .reset []).ctl.phase ≠ .idle ∧
    decodeRequest (running 0x10#8 .exec false .reset []).latch = .ok .crcInit ∧
    (running 0x10#8 .exec false .reset []).hosts.inputs = [] ∧
    ((running 0x10#8 .exec false .reset []).withInputs [.core]).hosts.inputs = .core :: [] := by decide

/-- A row of each shape: a request, the four sent frames, the two received ones. -/
theorem test_witness_FetchWordRunsTheRow :
    (decodeTableWord 128 0x03 = some .activate ∧ Instr.activate.wf = true) ∧
    (decodeTableWord 120 0x091003E8000306_000000000000_7330 = some .frameClear ∧ Instr.frameClear.wf = true) ∧
    (decodeTableWord 120 0x091003E8000306_010000000000_72E1 = some .frameActivate ∧
      Instr.frameActivate.wf = true) ∧
    (decodeTableWord 120 0x091003E8000306_090000804020_4259 =
      some (.frameMotion 0x80#8 0x40#8 0x20#8 0x5942#16) ∧
      (Instr.frameMotion 0x80#8 0x40#8 0x20#8 0x5942#16).wf = true) ∧
    (decodeTableWord 64 0x090307D00003_040E = some (.frameStatusRead 0x07D0#16 0x0E04#16) ∧
      (Instr.frameStatusRead 0x07D0#16 0x0E04#16).wf = true) ∧
    (decodeTableWord 64 0x091003E80003_0130 = some (.frameWriteAck ack) ∧
      (Instr.frameWriteAck ack).wf = true) ∧
    (decodeTableWord 88 0x090306310000000000_4294 = some (.frameStatusResponse ready) ∧
      (Instr.frameStatusResponse ready).wf = true) := by decide +kernel

theorem test_witness_CompletionDeliversTheResponse :
    isCommand .crcInit = true ∧ (running 0x10#8 .done false .reset []).ctl.phase = .done := by decide

/-- OP 0x03 with RSV not zero: an illegal request. -/
def illegalActivate : State :=
  { running 0x03#8 .exec false .reset [instantDraw, instantDraw] with
    latch := ⟨0x03#8, 1#24, 0#32, 0#32, 0#32⟩ }

/-- The reserved opcodes at the ends of their ranges, and a nonzero RSV. -/
theorem test_witness_IllegalRequestsFault :
    (running 0x00#8 .exec false .reset []).hosts.inputs = [] ∧
    (running 0x00#8 .exec false .reset []).ctl.phase = .exec ∧
    (running 0x00#8 .exec false .reset []).latch.op = 0x00#8 ∧
    (0x08#8 ≤ (running 0x08#8 .exec false .reset []).latch.op ∧
      (running 0x0F#8 .exec false .reset []).latch.op ≤ 0x0F#8) ∧
    0x12#8 ≤ (running 0x12#8 .exec false .reset []).latch.op ∧
    illegalActivate.latch.rsv ≠ 0#24 ∧
    (running 0x00#8 .done false .reset []).ctl.phase = .done ∧
    (running 0x00#8 .done false .reset []).latch.op = 0x00#8 := by decide

theorem test_witness_GatesFaultInOrder :
    (running 0x03#8 .exec false .reset []).ctl.phase = .exec ∧
    (running 0x03#8 .exec false .reset []).regs.sessionOpen = false ∧
    isExchange .getStatus = true ∧
    (running 0x07#8 .exec true .timedOut []).regs.sessionOpen = true ∧
    (running 0x07#8 .exec true .timedOut []).regs.actState ≠ .activated := by decide

/-- A response one byte short, and a full one with a wrong trailer. -/
theorem test_witness_BadResponsesFault :
    (running 0x07#8 .xRx true .activated [reads (moving.take 10)]).ctl.phase = .xRx ∧
    (running 0x07#8 .xRx true .activated [reads (moving.take 10)]).link.draw.hang = false ∧
    isExchange .getStatus = true ∧
    ((running 0x07#8 .xRx true .activated [reads (moving.take 10)]).link.readBytes
      (answerLength .getStatus)).length < answerLength .getStatus ∧
    answerLength .getStatus ≤ ((running 0x07#8 .xRx true .activated [reads corrupt]).link.readBytes
      (answerLength .getStatus)).length ∧
    checkCRC ((running 0x07#8 .xRx true .activated [reads corrupt]).link.readBytes
      (answerLength .getStatus)) = false := by decide +kernel

/-- The read that ends at the deadline and one a tick before it, the wait a tick short and the one cut to it. -/
theorem test_witness_FailedPollsTimeOutAtTheDeadline :
    ((polling .aPrx [reads notReady] 0).ctl.phase = .aPrx ∧
      (polling .aPrx [reads notReady] 0).link.draw.hang = false ∧
      (polling .aPrx [reads notReady] 0).link.readBytes 11 = notReady ∧
      parseActivationAck notReady ≠ .ok true ∧
      (polling .aPrx [reads notReady] 0).ctl.deadline ≤
        (polling .aPrx [reads notReady] 0).ctl.now + (polling .aPrx [reads notReady] 0).link.draw.dur) ∧
    ((polling .aPrx [reads notReady] 1).ctl.phase = .aPrx ∧
      (polling .aPrx [reads notReady] 1).link.readBytes 11 = notReady ∧
      (polling .aPrx [reads notReady] 1).ctl.now + (polling .aPrx [reads notReady] 1).link.draw.dur <
        (polling .aPrx [reads notReady] 1).ctl.deadline) ∧
    ((polling .aPwait [] 6).ctl.phase = .aPwait ∧
      (polling .aPwait [] 6).ctl.now + min (polling .aPwait [] 6).params.tPoll
          ((polling .aPwait [] 6).ctl.deadline - (polling .aPwait [] 6).ctl.now) <
        (polling .aPwait [] 6).ctl.deadline) ∧
    ((polling .aPwait [] 5).ctl.phase = .aPwait ∧
      (polling .aPwait [] 5).ctl.deadline ≤ (polling .aPwait [] 5).ctl.now +
        min (polling .aPwait [] 5).params.tPoll
          ((polling .aPwait [] 5).ctl.deadline - (polling .aPwait [] 5).ctl.now)) := by decide +kernel

theorem test_witness_EndlessReadsAreStuck :
    (running 0x04#8 .xRx true .activated [hangs]).link.draw.hang = true ∧
    (running 0x04#8 .xRx true .activated [hangs]).ctl.phase = .xRx ∧
    isExchange (.setPosition 0#32 0#32 0#32) = true ∧
    (polling .aPrx [hangs] 1).link.draw.hang = true ∧ (polling .aPrx [hangs] 1).ctl.phase = .aPrx := by decide

theorem test_witness_ExchangesKeepTheActivation : isExchange .getCurrent = true ∧
    after (fun t => t.ctl.phase) (exec .getCurrent (running 0x06#8 .exec true .activated [])) = some .xTx := by
  decide +kernel

theorem test_witness_InstructionsKeepThePort :
    after (fun t => t.ctl.phase) (exec .closeCmd (running 0x02#8 .done false .reset [])) = some .idle := by
  decide +kernel

/-! ### Witnesses: frames over a step -/

/-- A core step with no reset input, which changes SESSION_OPEN and ACT_STATE. -/
theorem test_witness_EachRegisterHasItsWriters :
    (running 0x02#8 .oClose true .activated [instantDraw]).resetNext = false ∧
    after (fun t => (t.regs.sessionOpen, t.regs.actState))
      (step (running 0x02#8 .oClose true .activated [instantDraw])) = some (false, .reset) := by
  decide +kernel

theorem test_witness_ResultsComeFromValidatedResponses :
    (running 0x05#8 .xRx true .activated [reads moving]).resetNext = false ∧
    after (fun t => t.regs.lastPos) (step (running 0x05#8 .xRx true .activated [reads moving])) =
      some 0x7F#8 ∧
    (running 0x05#8 .xRx true .activated [reads moving]).regs.lastPos = 0x00#8 := by decide +kernel

theorem test_witness_FaultLogIsStickyAndTimeNeverFalls :
    let s := { running 0x03#8 .done true .reset [] with regs := { Regs.reset with faultLog := 0x02#8 } }
    s.resetNext = false ∧ after (fun t => t.regs.faultLog) (step s) = some 0x02#8 := by decide +kernel

theorem test_witness_PendingBytesStayUntilConsumed :
    (running 0x03#8 .aClr true .activating [reads ack]).resetNext = false ∧
    (running 0x03#8 .aClr true .activating [reads ack]).ctl.phase ≠ .xRx ∧
    (running 0x03#8 .aClr true .activating [reads ack]).ctl.phase ≠ .aPrx ∧
    (running 0x03#8 .aClr true .activating [reads ack]).ctl.phase ≠ .aDisc ∧
    (running 0x03#8 .aClr true .activating [reads ack]).ctl.phase ≠ .oOpen ∧
    after (fun t => t.link.pending) (step (running 0x03#8 .aClr true .activating [reads ack])) = some ack := by
  decide +kernel

/-! ### Witnesses: other agents, acceptance, reset -/

theorem test_witness_BankWordsHaveTheirLayout : 8#4 ≤ 8#4 ∧ 8#4 ≤ 15#4 := by decide

theorem test_witness_BankReadsHaveNoSideEffect :
    (idleWith [.bankRead 1 2#4 32] []).hosts.inputs = .bankRead 1 2#4 32 :: [] := rfl

theorem test_witness_PresentedRequestsAreHeld :
    (idleWith [.present 2 5#128] [(1, 1#128)]).hosts.inputs = .present 2 5#128 :: [] ∧
    ∀ x, x ∈ (idleWith [.present 2 5#128] [(1, 1#128)]).hosts.held → x.1 ≠ 2 := by
  refine ⟨rfl, ?_⟩
  intro x hx
  rw [List.mem_singleton.mp hx]
  decide

/-- The second of two held requests is picked. -/
theorem test_witness_IdleCoreAcceptsAnyHeldRequest :
    let s := { idleWith [] [(1, 1#128), (2, 5#128)] with
      hosts := { Hosts.reset with held := [(1, 1#128), (2, 5#128)], picks := [1] } }
    s.ctl.phase = .idle ∧ s.hosts.inputs = [] ∧ s.hosts.picks = 1 :: [] ∧
    s.hosts.held[1]? = some (2, 5#128) := by decide

/-- A reset that cuts off the clear frame, one before its first byte, and one where no frame is written. -/
theorem test_witness_ResetInputDropsEverything :
    let s := (running 0x03#8 .aClr true .activating [instantDraw] [.opened true 0]).withInputs [.reset 5]
    s.hosts.inputs = .reset 5 :: [] ∧ frameInProgress s = some buildClearRequest ∧ s.Inv ∧
    (s.withInputs [.reset 0]).hosts.inputs = .reset 0 :: [] ∧
    frameInProgress (running 0x03#8 .aSet1 true .activating []) = none := by decide +kernel

/-! ### Witnesses: activation and the whole machine -/

/-- A step that ends in Activated and one that ends in TimedOut. -/
theorem test_witness_ActivationEndsOnlyAsTheSpecSays :
    after (fun t => t.regs.actState) (step (polling .aPrx [reads ready] 1)) = some .activated ∧
    after (fun t => t.regs.actState) (step (polling .aPwait [] 5)) = some .timedOut ∧
    (polling .aPrx [reads ready] 1).regs.actState = .activating ∧
    (polling .aPwait [] 5).regs.actState = .activating := by decide +kernel

/-- ACTIVATE at A_CLR with the transport's choices for these polls. -/
def handshake (p : Params) (polls : List Frame) : State :=
  { running 0x03#8 .aClr true .activating ([instantDraw, instantDraw] ++ polls.flatMap pollDraws ++ []) with
    params := p }

/-- V-ACT-2: two failed polls, then success. -/
theorem test_witness_PollScheduleOfSuccess :
    ZeroDurationHandshake (handshake vectorParams ([notReady, notReady] ++ [ready])) ([notReady, notReady] ++ [ready]) [] ∧
    (∀ r, r ∈ [notReady, notReady] → r.length ≤ 11 ∧ parseActivationAck r ≠ .ok true) ∧
    ready.length = 11 ∧ parseActivationAck ready = .ok true ∧
    2 * vectorParams.tSettle + [notReady, notReady].length * vectorParams.tPoll < vectorParams.tActTimeout :=
  ⟨⟨rfl, ⟨rfl, rfl⟩, rfl, rfl⟩, by decide +kernel, rfl, by decide +kernel, by decide⟩

/-- V-ACT-8: with a timeout of 13 ticks there are three polls. -/
theorem test_witness_PollScheduleOfTimeout :
    let p := { vectorParams with tActTimeout := 13 }
    ZeroDurationHandshake (handshake p [notReady, notReady, notReady]) [notReady, notReady, notReady] [] ∧
    (∀ r, r ∈ [notReady, notReady, notReady] → r.length ≤ 11 ∧ parseActivationAck r ≠ .ok true) ∧
    0 < p.tPoll ∧ 2 * p.tSettle < p.tActTimeout ∧
    [notReady, notReady, notReady].length = (p.tActTimeout - 2 * p.tSettle + (p.tPoll - 1)) / p.tPoll :=
  ⟨⟨rfl, ⟨rfl, rfl⟩, rfl, rfl⟩, by decide +kernel, by decide, by decide, by decide⟩

/-- V-ACT-4, and the boundary 2S = T. -/
theorem test_witness_LateFirstPollIsTheOnlyOne :
    let p := { vectorParams with tSettle := 50 }
    ZeroDurationHandshake (handshake p [notReady]) [notReady] [] ∧ notReady.length ≤ 11 ∧
    parseActivationAck notReady ≠ .ok true ∧ p.tActTimeout ≤ 2 * p.tSettle :=
  ⟨⟨rfl, ⟨rfl, rfl⟩, rfl, rfl⟩, by decide, by decide +kernel, by decide⟩

/-- A state in mid-handshake meets the invariant, and its step answers a next state. -/
theorem test_witness_EveryStepKeepsTheInvariant :
    (running 0x03#8 .aClr true .activating [instantDraw] [.opened true 0]).Inv ∧
    after (fun t => t.ctl.phase)
      (step (running 0x03#8 .aClr true .activating [instantDraw] [.opened true 0])) = some .aSet1 := by
  decide +kernel

theorem test_witness_TheMachineNeverStops :
    (running 0x07#8 .xTx true .activated [] [.opened true 0]).Inv := by decide +kernel

/-- A completion. -/
theorem test_witness_OneResponsePerAcceptance :
    (running 0x10#8 .done false .reset []).Inv ∧ (running 0x10#8 .done false .reset []).resetNext = false ∧
    after (fun t => t.ctl.phase) (step (running 0x10#8 .done false .reset [])) = some .idle := by
  decide +kernel

theorem test_witness_CommandsCompleteWithinFourSteps :
    let s := running 0x07#8 .exec true .activated [instantDraw, reads moving] [.opened true 0]
    s.Inv ∧ s.ctl.phase = .exec ∧ s.hosts.inputs = [] ∧ s.latch.op ≠ 0x03#8 ∧
    (s.link.transact [] (.closed 0)).draw.hang = false := by decide +kernel

theorem test_witness_CommandsCompleteWithinFourSteps_illegal :
    illegalActivate.Inv ∧ illegalActivate.ctl.phase = .exec ∧ illegalActivate.hosts.inputs = [] ∧
    illegalActivate.latch.rsv ≠ 0#24 ∧
    (illegalActivate.link.transact [] (.closed 0)).draw.hang = false := by decide +kernel

/-! ### Host programs (30_encoding.md R90, R91; request words of 95_test_vectors.md P2, P3 and P4) -/

theorem test_program_text_assembles :
    assembleText 1 ("START                      ; OPEN, then ACTIVATE\n" ++
      "SET_POSITION 300, -1, 2.5\n\nCRC_BYTES 0x09, 16\n" ++
      "WORD 00000000_00000000_00000000_00000110\nREAD 6").toList =
    some [.present 1 0x00000000_00000000_00000000_00000001#128,
      .present 1 0x00000000_00000000_00000000_00000003#128,
      .present 1 0x00000280_FFFFFF00_00012C00_00000004#128,
      .present 1 0x00000000_00000000_00000000_00000010#128,
      .present 1 0x00000000_00000000_00000009_00000011#128,
      .present 1 0x00000000_00000000_00000010_00000011#128,
      .present 1 0x00000000_00000000_00000000_00000110#128, .bankRead 1 6#4 32] := by decide +kernel

theorem test_program_text_refused :
    assembleText 0 "CRC_BYTE 256".toList = none ∧ assembleText 0 "SETPOS 0.001, 1, 1".toList = none ∧
    assembleText 0 "READ 16".toList = none := by decide +kernel

end Sys2Proof.Tests
end

/-! What the invariant says of the control point is taken apart from what it says at every control point
(`State.Steady`): the second part has one rule per state operation, the first one lemma per control point. -/

namespace Sys2Proof.Machine

/-- What the invariant says whatever the control point is. -/
structure State.Steady (s : State) : Prop where
  closedReset : s.regs.sessionOpen = false → s.regs.actState = .reset
  faults : s.faultsFit
  results : s.resultsFit
  txLength : s.ctl.txBuf.length ≤ 15
  rxLength : s.ctl.rxBuf.length ≤ 11
  rxLen : s.ctl.rxLen.toNat = s.ctl.rxBuf.length
  held : s.heldFits
  built : framesBuilt s.params.statusAddr s.link.trace = true
  owned : ownership s.link.trace = some s.regs.sessionOpen
  exchanged : (exchange s.link.trace).isSome = true

/-- The invariant: the steady part, and what it says of the control point. -/
theorem inv_iff (s : State) : s.Inv ↔ s.Steady ∧ s.phaseFits = true ∧
    (s.regs.actState = .activating → s.ctl.phase.inActivation = true) ∧
    (s.ctl.phase = .xTx → s.latch.op = 0x04#8 →
      s.ctl.txBuf = buildMotionRequest s.params.roundTie s.latch.a0 s.latch.a1 s.latch.a2 ∧
      s.regs.motionEnc = motionBytes s.ctl.txBuf) ∧
    (s.awaited.isSome = true → exchange s.link.trace = some s.awaited) := by
  constructor
  · rintro ⟨phase, ⟨activating, closed⟩, faults, results, ⟨tx, rx, len, motion⟩, held, built, owned,
      exchanged, awaits⟩
    exact ⟨⟨closed, faults, results, tx, rx, len, held, built, owned, exchanged⟩, phase, activating,
      motion, awaits⟩
  · rintro ⟨⟨closed, faults, results, tx, rx, len, held, built, owned, exchanged⟩, phase, activating,
      motion, awaits⟩
    exact ⟨phase, ⟨activating, closed⟩, faults, results, ⟨tx, rx, len, motion⟩, held, built, owned,
      exchanged, awaits⟩

/-! ### The invariant at each control point -/

/-- A handshake is running (44_activation_sequencer.md R183). -/
structure State.Handshakes (s : State) : Prop where
  busy : s.regs.busy = true
  opened : s.regs.sessionOpen = true
  act : s.regs.actState = .activating
  run : s.runs 0x03#8 = true

/-- A motion or status exchange is running (45_session_commands.md R196–R199). -/
structure State.Exchanges (s : State) : Prop where
  busy : s.regs.busy = true
  opened : s.regs.sessionOpen = true
  act : s.regs.actState = .activated
  run : s.runs 0x04#8 = true ∨ s.runs 0x05#8 = true ∨ s.runs 0x06#8 = true ∨ s.runs 0x07#8 = true

variable {s : State}

theorem phaseFits_handshake_iff (p : s.ctl.phase.inActivation = true) :
    s.phaseFits = true ↔ s.Handshakes := by
  have fits : s.phaseFits = (s.regs.busy && s.regs.sessionOpen && s.regs.actState == .activating &&
      s.runs 0x03#8) := by
    unfold State.phaseFits
    split <;> simp_all [Phase.inActivation]
  simp only [fits, Bool.and_eq_true, beq_iff_eq]
  exact ⟨fun ⟨⟨⟨busy, opened⟩, act⟩, run⟩ => ⟨busy, opened, act, run⟩,
    fun ⟨busy, opened, act, run⟩ => ⟨⟨⟨busy, opened⟩, act⟩, run⟩⟩

theorem phaseFits_exchange_iff (p : s.ctl.phase = .xTx ∨ s.ctl.phase = .xRx) :
    s.phaseFits = true ↔ s.Exchanges := by
  have fits : s.phaseFits = (s.regs.busy && s.regs.sessionOpen && s.regs.actState == .activated &&
      (s.runs 0x04#8 || s.runs 0x05#8 || s.runs 0x06#8 || s.runs 0x07#8)) := by
    rcases p with p | p <;> simp [State.phaseFits, p]
  simp only [fits, Bool.and_eq_true, Bool.or_eq_true, beq_iff_eq, or_assoc]
  exact ⟨fun ⟨⟨⟨busy, opened⟩, act⟩, run⟩ => ⟨busy, opened, act, run⟩,
    fun ⟨busy, opened, act, run⟩ => ⟨⟨⟨busy, opened⟩, act⟩, run⟩⟩

theorem inv_idle_iff (p : s.ctl.phase = .idle) :
    s.Inv ↔ s.Steady ∧ s.regs.busy = false ∧ s.regs.actState ≠ .activating := by
  simp [inv_iff, State.phaseFits, State.awaited, Phase.inActivation, p]

/-- At EXEC and DONE any request may be running, and no handshake is. -/
theorem inv_exec_done_iff (p : s.ctl.phase = .exec ∨ s.ctl.phase = .done) :
    s.Inv ↔ s.Steady ∧ s.regs.busy = true ∧ s.regs.actState ≠ .activating := by
  rcases p with p | p <;> simp [inv_iff, State.phaseFits, State.awaited, Phase.inActivation, p]

theorem inv_oOpen_iff (p : s.ctl.phase = .oOpen) :
    s.Inv ↔ s.Steady ∧ ((s.regs.busy = true ∧ s.regs.sessionOpen = false) ∧ s.runs 0x01#8 = true) ∧
      s.regs.actState ≠ .activating := by
  simp [inv_iff, State.phaseFits, State.awaited, Phase.inActivation, p]

theorem inv_oClose_iff (p : s.ctl.phase = .oClose) :
    s.Inv ↔ s.Steady ∧ ((s.regs.busy = true ∧ s.regs.sessionOpen = true) ∧ s.runs 0x02#8 = true) ∧
      s.regs.actState ≠ .activating := by
  simp [inv_iff, State.phaseFits, State.awaited, Phase.inActivation, p]

theorem inv_xTx_iff (p : s.ctl.phase = .xTx) :
    s.Inv ↔ s.Steady ∧ s.Exchanges ∧ (s.latch.op = 0x04#8 →
      s.ctl.txBuf = buildMotionRequest s.params.roundTie s.latch.a0 s.latch.a1 s.latch.a2 ∧
      s.regs.motionEnc = motionBytes s.ctl.txBuf) := by
  rw [inv_iff, phaseFits_exchange_iff (.inl p)]
  have noRead : s.awaited = none := by simp [State.awaited, p]
  constructor
  · rintro ⟨steady, run, -, motion, -⟩
    exact ⟨steady, run, motion p⟩
  · rintro ⟨steady, run, motion⟩
    exact ⟨steady, run, by simp [run.act], fun _ => motion, by simp [noRead]⟩

theorem inv_xRx_iff (p : s.ctl.phase = .xRx) :
    s.Inv ↔ s.Steady ∧ s.Exchanges ∧
      exchange s.link.trace = some (some (if s.latch.op = 0x04#8 then ackLen else statusLen)) := by
  rw [inv_iff, phaseFits_exchange_iff (.inr p)]
  have asks : s.awaited = some (if s.latch.op = 0x04#8 then ackLen else statusLen) := by
    simp [State.awaited, p]
  constructor
  · rintro ⟨steady, run, -, -, awaits⟩
    exact ⟨steady, run, by simpa [asks] using awaits⟩
  · rintro ⟨steady, run, awaits⟩
    exact ⟨steady, run, by simp [run.act], by simp [p], fun _ => by rw [asks, awaits]⟩

theorem inv_handshake_iff (p : s.ctl.phase.inActivation = true) :
    s.Inv ↔ s.Steady ∧ s.Handshakes ∧
      (s.ctl.phase = .aPrx → exchange s.link.trace = some (some statusLen)) := by
  rw [inv_iff, phaseFits_handshake_iff p]
  have asks : s.awaited = if s.ctl.phase = .aPrx then some statusLen else none := by
    unfold State.awaited
    split <;> simp_all [Phase.inActivation]
  constructor
  · rintro ⟨steady, run, -, -, awaits⟩
    exact ⟨steady, run, fun q => by simpa [asks, q] using awaits⟩
  · rintro ⟨steady, run, awaits⟩
    refine ⟨steady, run, fun _ => p, fun q => by simp [q, Phase.inActivation] at p, ?_⟩
    by_cases q : s.ctl.phase = .aPrx
    · exact fun _ => by simp [asks, q, awaits q]
    · simp [asks, q]

end Sys2Proof.Machine

/-! One rule per state operation for the steady part of the invariant. -/

namespace Sys2Proof.Machine

/-! ### FAULT_LOG -/

/-- Logging a fault clears no bit (10_state.md R26). -/
theorem getLsbD_logFault_of_set {log : BitVec 8} {k : Nat} (c : FaultCode) (set : log.getLsbD k = true) :
    (logFault c log).getLsbD k = true := by
  unfold logFault
  split
  · exact set
  · simp [set]

/-- A logged fault has its bit. -/
theorem getLsbD_num_logFault (log : BitVec 8) {c : FaultCode} (fault : c ≠ .none) :
    (logFault c log).getLsbD c.num = true := by
  cases c <;> simp [logFault, FaultCode.num] at fault ⊢

/-- NONE is never logged. -/
theorem getLsbD_zero_logFault (c : FaultCode) (log : BitVec 8) :
    (logFault c log).getLsbD 0 = log.getLsbD 0 := by
  cases c <;> simp [logFault, FaultCode.num]

namespace State.Steady

variable {s : State}

/-- The control point, the times and the kept response are no part of it. -/
theorem setControl (h : s.Steady) (p : Phase) (now deadline : Nat) (r : Resp) :
    { s with ctl := { s.ctl with phase := p, now := now, deadline := deadline, resp := r } : State }.Steady :=
  ⟨h.closedReset, h.faults, h.results, h.txLength, h.rxLength, h.rxLen, h.held, h.built, h.owned,
    h.exchanged⟩

theorem goTo (h : s.Steady) (p : Phase) : (Machine.goTo p s).Steady :=
  h.setControl p s.ctl.now s.ctl.deadline s.ctl.resp

theorem waitTicks (h : s.Steady) (d : Nat) : (Machine.waitTicks d s).Steady :=
  h.setControl s.ctl.phase (s.ctl.now + d) s.ctl.deadline s.ctl.resp

theorem respond (h : s.Steady) (r : Resp) : (Machine.respond r s).Steady :=
  h.setControl .done s.ctl.now s.ctl.deadline r

/-- The activation may change in an open session. -/
theorem setAct (h : s.Steady) (opened : s.regs.sessionOpen = true) (a : ActState) :
    (Machine.setAct a s).Steady :=
  { h with closedReset := fun closed => by simp [opened] at closed }

/-- CRC_ACC, LAST_POS, LAST_STA and MOTION_ENC are free, LAST_CUR is in its range (10_state.md R29). -/
theorem setResults (h : s.Steady) (crc : Half) (pos sta : Byte) (enc : BitVec 24) {cur : BitVec 12}
    (tens : cur.toNat % 10 = 0) (le : cur.toNat ≤ 2550) :
    { s with regs := { s.regs with
        crcAcc := crc, lastPos := pos, lastCur := cur, lastSta := sta, motionEnc := enc } : State }.Steady :=
  have ⟨_, _, lastOp, requester⟩ := h.results
  { h with results := ⟨tens, le, lastOp, requester⟩ }

/-- One more event of the transport: no read out of turn and no frame but a builder's, and it leaves the
transport as SESSION_OPEN and ACT_STATE then say. -/
theorem recordSession (h : s.Steady) (l : Link) (e : TransportEvent) (b : Bool) (a : ActState)
    (trace : l.trace = s.link.trace ++ [e]) (built : framesBuilt s.params.statusAddr [e] = true)
    (exchanged : (exchange (s.link.trace ++ [e])).isSome = true)
    (owned : ownershipStep (some s.regs.sessionOpen) e = some b) (closed : b = false → a = .reset) :
    { s with regs := { s.regs with sessionOpen := b, actState := a }, link := l : State }.Steady :=
  { h with
    closedReset := closed
    built := by simp [trace, framesBuilt_append, h.built, built]
    owned := by simp [trace, ownership_append, h.owned, owned]
    exchanged := by simp only [trace, exchanged] }

/-- One more event inside a session. -/
theorem record (h : s.Steady) (l : Link) (e : TransportEvent) (trace : l.trace = s.link.trace ++ [e])
    (built : framesBuilt s.params.statusAddr [e] = true)
    (exchanged : (exchange (s.link.trace ++ [e])).isSome = true)
    (owned : ownershipStep (some s.regs.sessionOpen) e = some s.regs.sessionOpen) :
    { s with link := l : State }.Steady :=
  h.recordSession l e s.regs.sessionOpen s.regs.actState trace built exchanged owned h.closedReset

theorem txWrite (h : s.Steady) (opened : s.regs.sessionOpen = true) {f : Frame}
    (built : builtFrame s.params.statusAddr f = true) (le : f.length ≤ 15) :
    (Machine.txWrite f s).Steady :=
  { h.record (Machine.txWrite f s).link (.wrote f s.ctl.now) rfl (by simp [framesBuilt, built])
      (by simp [exchange_wrote f _ h.exchanged]) (by rw [opened]; rfl) with
    txLength := le }

theorem rxDiscard (h : s.Steady) (opened : s.regs.sessionOpen = true) : (Machine.rxDiscard s).Steady :=
  h.record (Machine.rxDiscard s).link (.discarded s.ctl.now) rfl rfl
    (exchange_isSome h.exchanged (by simp)) (by rw [opened]; rfl)

/-- A read that the last write allows. -/
theorem rxReadReturns (h : s.Steady) (opened : s.regs.sessionOpen = true) {n : Nat} {r : Frame}
    (allowed : exchange s.link.trace = some (some n)) (short : r.length ≤ n) (le : n ≤ 11) :
    (Machine.rxReadReturns n r s).Steady :=
  { h.record (Machine.rxReadReturns n r s).link (.read n r s.ctl.now) rfl rfl
      (by simp [exchange_append, allowed, exchangeStep, short]) (by rw [opened]; rfl) with
    rxLength := by simp; omega
    rxLen := by simp; omega }

theorem tOpen_fails (h : s.Steady) (closed : s.regs.sessionOpen = false) (fails : s.link.draw.ok = false) :
    (tOpen s).Steady :=
  { h.record (tOpen s).link (.opened s.link.draw.ok s.ctl.now) rfl rfl
      (exchange_isSome h.exchanged (by simp)) (by rw [closed, fails]; rfl) with }

theorem tOpen_succeeds (h : s.Steady) (closed : s.regs.sessionOpen = false) (ok : s.link.draw.ok = true) :
    (setSession true (tOpen s)).Steady :=
  { h.recordSession (tOpen s).link (.opened s.link.draw.ok s.ctl.now) true .reset rfl rfl
      (exchange_isSome h.exchanged (by simp)) (by rw [closed, ok]; rfl) nofun with }

theorem tClose (h : s.Steady) (opened : s.regs.sessionOpen = true) :
    (setSession false (Machine.tClose s)).Steady :=
  { h.recordSession (Machine.tClose s).link (.closed s.ctl.now) false .reset rfl rfl
      (exchange_isSome h.exchanged (by simp)) (by rw [opened]; rfl) (fun _ => rfl) with }

/-- Completion logs the fault and keeps bit 0 clear (10_state.md R26). -/
theorem complete (h : s.Steady) : (Machine.complete s).Steady :=
  have ⟨bitZero, _⟩ := h.faults
  have ⟨tens, le, lastOp, _⟩ := h.results
  { h with
    faults := ⟨(getLsbD_zero_logFault _ _).trans bitZero, getLsbD_num_logFault s.regs.faultLog⟩
    results := ⟨tens, le, lastOp, nofun⟩ }

theorem accept (h : s.Steady) (x : HostId) (w : BitVec 128) : (Machine.accept x w s).Steady :=
  have ⟨tens, le, _, _⟩ := h.results
  { h with results := ⟨tens, le, rfl, fun _ => rfl⟩ }

theorem setHeld (h : s.Steady) {xs : List (HostId × BitVec 128)} (rising : Rising xs) (picks : List Nat)
    (n : Nat) :
    { s with hosts := { s.hosts with held := xs, picks := picks, arbitrations := n } : State }.Steady :=
  { h with held := rising }

end State.Steady
end Sys2Proof.Machine

/-! Every core step keeps the invariant: how a command ends, the steps of each command, and the moves. -/

namespace Sys2Proof.Machine

variable {s t : State}

/-! ### Ends of commands -/

theorem inv_respond (h : s.Steady) (busy : s.regs.busy = true) (act : s.regs.actState ≠ .activating)
    (r : Resp) : (respond r s).Inv :=
  (inv_exec_done_iff (.inr rfl)).mpr ⟨h.respond r, busy, act⟩

theorem inv_raiseFault (h : s.Steady) (busy : s.regs.busy = true) (act : s.regs.actState ≠ .activating)
    (c : FaultCode) : (raiseFault c s).Inv :=
  inv_respond h busy act _

theorem inv_complete (p : s.ctl.phase = .done) (h : s.Inv) : (complete s).Inv := by
  obtain ⟨steady, -, act⟩ := (inv_exec_done_iff (.inr p)).mp h
  exact (inv_idle_iff rfl).mpr ⟨steady.complete, rfl, act⟩

theorem inv_acceptNext (p : s.ctl.phase = .idle) (h : s.Inv) : (acceptNext s).Inv := by
  obtain ⟨steady, -, act⟩ := (inv_idle_iff p).mp h
  rcases acceptNext_cases s with e | ⟨k, x, w, -, e⟩ <;> rw [e]
  · exact h
  · exact (inv_exec_done_iff (.inl rfl)).mpr
      ⟨(steady.setHeld (eraseIdx_rising k steady.held) _ _).accept x w, rfl, act⟩

/-! ### OPEN and CLOSE -/

theorem inv_openCheck (p : s.ctl.phase = .exec) (run : s.runs 0x01#8 = true) (h : s.Inv) :
    (openCheck s).Inv := by
  obtain ⟨steady, busy, act⟩ := (inv_exec_done_iff (.inl p)).mp h
  unfold openCheck
  split
  · exact inv_respond steady busy act _
  · rename_i closed
    exact (inv_oOpen_iff rfl).mpr ⟨steady.goTo _, ⟨⟨busy, by simpa using closed⟩, run⟩, act⟩

theorem inv_openTransport (p : s.ctl.phase = .oOpen) (h : s.Inv) : (openTransport s).Inv := by
  obtain ⟨steady, ⟨⟨busy, closed⟩, -⟩, act⟩ := (inv_oOpen_iff p).mp h
  unfold openTransport
  split
  · exact inv_respond (steady.tOpen_succeeds closed ‹_›) busy nofun _
  · rename_i fails
    exact inv_raiseFault (steady.tOpen_fails closed (by simpa using fails)) busy act _

theorem inv_closeCheck (p : s.ctl.phase = .exec) (run : s.runs 0x02#8 = true) (h : s.Inv) :
    (closeCheck s).Inv := by
  obtain ⟨steady, busy, act⟩ := (inv_exec_done_iff (.inl p)).mp h
  unfold closeCheck
  split
  · exact (inv_oClose_iff rfl).mpr ⟨steady.goTo _, ⟨⟨busy, ‹_›⟩, run⟩, act⟩
  · exact inv_respond steady busy act _

theorem inv_closeTransport (p : s.ctl.phase = .oClose) (h : s.Inv) : (closeTransport s).Inv := by
  obtain ⟨steady, ⟨⟨busy, opened⟩, -⟩, -⟩ := (inv_oClose_iff p).mp h
  exact inv_respond (steady.tClose opened) busy nofun _

/-! ### ACTIVATE -/

/-- The handshake goes on to a control point that reads nothing. -/
theorem inv_goTo_handshake (h : s.Steady) (run : s.Handshakes) (p : Phase) (inside : p.inActivation = true)
    (noRead : p ≠ .aPrx) : (goTo p s).Inv :=
  (inv_handshake_iff inside).mpr ⟨h.goTo p, { run with }, fun q => absurd q noRead⟩

theorem inv_timeOut (h : s.Steady) (run : s.Handshakes) : (timeOut s).Inv :=
  inv_raiseFault (h.setAct run.opened .timedOut) run.busy nofun _

theorem inv_onPoll (h : s.Steady) (run : s.Handshakes) (r : Frame) : (onPoll r s).Inv := by
  rcases onPoll_cases r s with ⟨-, e⟩ | ⟨-, -, e⟩ | ⟨-, -, e⟩ <;> rw [e]
  · exact inv_respond (h.setAct run.opened .activated) run.busy nofun _
  · exact inv_timeOut h run
  · exact inv_goTo_handshake h run .aPwait rfl nofun

theorem inv_afterPollWait (h : s.Steady) (run : s.Handshakes) : (afterPollWait s).Inv := by
  rcases afterPollWait_cases s with ⟨-, e⟩ | ⟨-, e⟩ <;> rw [e]
  · exact inv_timeOut h run
  · exact inv_goTo_handshake h run .aPtx rfl nofun

theorem inv_startActivation (p : s.ctl.phase = .exec) (run : s.runs 0x03#8 = true)
    (opened : s.regs.sessionOpen = true) (h : s.Inv) :
    (goTo .aClr (setAct .activating (setAct .reset s))).Inv := by
  obtain ⟨steady, busy, -⟩ := (inv_exec_done_iff (.inl p)).mp h
  exact inv_goTo_handshake ((steady.setAct opened .reset).setAct opened .activating)
    ⟨busy, opened, rfl, run⟩ .aClr rfl nofun

theorem inv_sendClear (p : s.ctl.phase = .aClr) (h : s.Inv) : (sendClear s).Inv := by
  obtain ⟨steady, run, -⟩ := (inv_handshake_iff (by rw [p]; rfl)).mp h
  exact inv_goTo_handshake
    ((steady.setControl s.ctl.phase s.ctl.now (s.ctl.now + s.params.tActTimeout) s.ctl.resp).txWrite
      run.opened (builtFrame_clear _) (by simp)) { run with } .aSet1 rfl nofun

theorem inv_sendActivate (p : s.ctl.phase = .aAct) (h : s.Inv) : (sendActivate s).Inv := by
  obtain ⟨steady, run, -⟩ := (inv_handshake_iff (by rw [p]; rfl)).mp h
  exact inv_goTo_handshake (steady.txWrite run.opened (builtFrame_activate _) (by simp)) { run with }
    .aSet2 rfl nofun

/-- A settle wait of the handshake. -/
theorem inv_settle (inside : s.ctl.phase.inActivation = true) (p : Phase) (inside' : p.inActivation = true)
    (noRead : p ≠ .aPrx) (d : Nat) (h : s.Inv) : (goTo p (waitTicks d s)).Inv := by
  obtain ⟨steady, run, -⟩ := (inv_handshake_iff inside).mp h
  exact inv_goTo_handshake (steady.waitTicks d) { run with } p inside' noRead

theorem inv_discard (p : s.ctl.phase = .aDisc) (h : s.Inv) : (goTo .aPtx (rxDiscard s)).Inv := by
  obtain ⟨steady, run, -⟩ := (inv_handshake_iff (by rw [p]; rfl)).mp h
  exact inv_goTo_handshake (steady.rxDiscard run.opened) { run with } .aPtx rfl nofun

/-- A write allows the read of its response, and no other (20_memory.md R66). -/
theorem exchange_txWrite (h : s.Steady) (f : Frame) (p : Phase) :
    exchange (goTo p (txWrite f s)).link.trace = some (some (responseLength f)) :=
  exchange_wrote f _ h.exchanged

theorem responseLength_statusRead (addr : Half) :
    responseLength (buildStatusReadRequest addr) = statusLen := by
  simp [responseLength]

theorem responseLength_motion (tie : RoundTie) (a0 a1 a2 : Word) :
    responseLength (buildMotionRequest tie a0 a1 a2) = ackLen := by
  simp [responseLength]

theorem inv_sendPoll (p : s.ctl.phase = .aPtx) (h : s.Inv) :
    (sendPoll (buildStatusReadRequest s.params.statusAddr) s).Inv := by
  obtain ⟨steady, run, -⟩ := (inv_handshake_iff (by rw [p]; rfl)).mp h
  exact (inv_handshake_iff rfl).mpr
    ⟨(steady.txWrite run.opened (builtFrame_statusRead _) (by simp)).goTo .aPrx, { run with },
      fun _ => by rw [sendPoll, exchange_txWrite steady, responseLength_statusRead]⟩

theorem inv_readPoll (p : s.ctl.phase = .aPrx) (h : s.Inv) : (rxReadThen statusLen onPoll s).Inv := by
  obtain ⟨steady, run, allowed⟩ := (inv_handshake_iff (by rw [p]; rfl)).mp h
  rcases rxReadThen_cases statusLen onPoll s with ⟨-, e⟩ | ⟨-, e⟩ <;> rw [e]
  · exact h
  · exact inv_onPoll (steady.rxReadReturns run.opened (allowed p) (length_readBytes_le _ _) (by decide))
      { run with } _

theorem inv_pollWait (p : s.ctl.phase = .aPwait) (h : s.Inv) :
    (afterPollWait (waitTicks (pollWait s) s)).Inv := by
  obtain ⟨steady, run, -⟩ := (inv_handshake_iff (by rw [p]; rfl)).mp h
  exact inv_afterPollWait (steady.waitTicks _) { run with }

/-! ### Motion and status exchanges -/

theorem op_of_runs {op : Byte} (run : s.runs op = true) : s.latch.op = op := by
  simp only [State.runs, Bool.and_eq_true, beq_iff_eq] at run
  exact run.2

theorem inv_buildMotion (p : s.ctl.phase = .exec) (run : s.runs 0x04#8 = true)
    (opened : s.regs.sessionOpen = true) (act : s.regs.actState = .activated) (h : s.Inv) :
    (goTo .xTx (buildMotion s.latch.a0 s.latch.a1 s.latch.a2 s)).Inv := by
  obtain ⟨steady, busy, -⟩ := (inv_exec_done_iff (.inl p)).mp h
  exact (inv_xTx_iff rfl).mpr
    ⟨{ steady with txLength := by simp }, ⟨busy, opened, act, .inl run⟩, fun _ => ⟨rfl, rfl⟩⟩

theorem inv_sendMotion (p : s.ctl.phase = .xTx) (run : s.runs 0x04#8 = true) (h : s.Inv) :
    (goTo .xRx (txWrite s.ctl.txBuf s)).Inv := by
  obtain ⟨steady, exchanges, motion⟩ := (inv_xTx_iff p).mp h
  have op : s.latch.op = 0x04#8 := op_of_runs run
  obtain ⟨tx, -⟩ := motion op
  have built : builtFrame s.params.statusAddr s.ctl.txBuf = true := by
    rw [tx]
    exact builtFrame_motion _ _ _ _
  refine (inv_xRx_iff rfl).mpr
    ⟨(steady.txWrite exchanges.opened built steady.txLength).goTo .xRx, { exchanges with }, ?_⟩
  rw [exchange_txWrite steady, tx, responseLength_motion]
  simp [op]

theorem inv_onWriteAck (h : s.Steady) (run : s.Exchanges) (r : Frame) : (onWriteAck r s).Inv := by
  have act : s.regs.actState ≠ .activating := by simp [run.act]
  rcases onWriteAck_cases r s with ⟨c, -, e⟩ | ⟨-, e⟩ <;> rw [e]
  · exact inv_raiseFault h run.busy act c
  · exact inv_respond h run.busy act _

theorem inv_readAck (p : s.ctl.phase = .xRx) (run : s.runs 0x04#8 = true) (h : s.Inv) :
    (rxReadThen ackLen onWriteAck s).Inv := by
  obtain ⟨steady, exchanges, allowed⟩ := (inv_xRx_iff p).mp h
  rw [if_pos (op_of_runs run)] at allowed
  rcases rxReadThen_cases ackLen onWriteAck s with ⟨-, e⟩ | ⟨-, e⟩ <;> rw [e]
  · exact h
  · exact inv_onWriteAck
      (steady.rxReadReturns exchanges.opened allowed (length_readBytes_le _ _) (by decide))
      { exchanges with } _

/-- A status command is no SET_POSITION. -/
theorem runs_of_keepOf {keep : StatusValue → State → State} (rsv : s.latch.rsv = 0#24)
    (run : keepOf s.latch.op = some keep) :
    s.latch.op ≠ 0x04#8 ∧ (s.runs 0x05#8 = true ∨ s.runs 0x06#8 = true ∨ s.runs 0x07#8 = true) := by
  rcases keepOf_some run with ⟨op, -⟩ | ⟨op, -⟩ | ⟨op, -⟩ <;> simp [State.runs, rsv, op]

theorem inv_startStatus {keep : StatusValue → State → State} (p : s.ctl.phase = .exec)
    (run : keepOf s.latch.op = some keep) (rsv : s.latch.rsv = 0#24) (opened : s.regs.sessionOpen = true)
    (act : s.regs.actState = .activated) (h : s.Inv) : (goTo .xTx s).Inv := by
  obtain ⟨steady, busy, -⟩ := (inv_exec_done_iff (.inl p)).mp h
  obtain ⟨noMotion, runs⟩ := runs_of_keepOf rsv run
  exact (inv_xTx_iff rfl).mpr
    ⟨steady.goTo .xTx, ⟨busy, opened, act, .inr runs⟩, fun motion => absurd motion noMotion⟩

theorem inv_sendStatus {keep : StatusValue → State → State} (p : s.ctl.phase = .xTx)
    (run : keepOf s.latch.op = some keep) (rsv : s.latch.rsv = 0#24) (h : s.Inv) :
    (goTo .xRx (txWrite (buildStatusReadRequest s.params.statusAddr) s)).Inv := by
  obtain ⟨steady, exchanges, -⟩ := (inv_xTx_iff p).mp h
  refine (inv_xRx_iff rfl).mpr
    ⟨(steady.txWrite exchanges.opened (builtFrame_statusRead _) (by simp)).goTo .xRx,
      { exchanges with }, ?_⟩
  rw [exchange_txWrite steady, responseLength_statusRead]
  obtain ⟨noMotion, -⟩ := runs_of_keepOf rsv run
  simp [noMotion]

/-- What the status commands keep of a response fits the result registers (10_state.md R29). -/
theorem inv_onStatus {keep : StatusValue → State → State} {op : Byte} (run : keepOf op = some keep)
    (h : s.Steady) (exchanges : s.Exchanges) (r : Frame) : (onStatus keep r s).Inv := by
  have act : s.regs.actState ≠ .activating := by simp [exchanges.act]
  rcases onStatus_cases keep r s with ⟨c, -, e⟩ | ⟨v, parsed, e⟩ <;> rw [e]
  · exact inv_raiseFault h exchanges.busy act c
  · obtain ⟨tens, le, -⟩ := h.results
    have current : v.cur.toNat = 10 * (r.getD curOff 0#8).toNat := by
      obtain ⟨-, rfl⟩ := parseStatus_ok parsed
      exact toNat_current _
    have byte := (r.getD curOff 0#8).isLt
    have results := h.setResults s.regs.crcAcc
    rcases keepOf_some run with ⟨-, rfl⟩ | ⟨-, rfl⟩ | ⟨-, rfl⟩
    · exact inv_respond (results v.pos s.regs.lastSta s.regs.motionEnc tens le) exchanges.busy act _
    · exact inv_respond (results s.regs.lastPos s.regs.lastSta s.regs.motionEnc (cur := v.cur) (by omega)
        (by omega)) exchanges.busy act _
    · exact inv_respond (results v.pos v.sta s.regs.motionEnc (cur := v.cur) (by omega) (by omega))
        exchanges.busy act _

theorem inv_readStatus {keep : StatusValue → State → State} (p : s.ctl.phase = .xRx)
    (run : keepOf s.latch.op = some keep) (rsv : s.latch.rsv = 0#24) (h : s.Inv) :
    (rxReadThen statusLen (onStatus keep) s).Inv := by
  obtain ⟨steady, exchanges, allowed⟩ := (inv_xRx_iff p).mp h
  obtain ⟨noMotion, -⟩ := runs_of_keepOf rsv run
  rw [if_neg noMotion] at allowed
  rcases rxReadThen_cases statusLen (onStatus keep) s with ⟨-, e⟩ | ⟨-, e⟩ <;> rw [e]
  · exact h
  · exact inv_onStatus run
      (steady.rxReadReturns exchanges.opened allowed (length_readBytes_le _ _) (by decide))
      { exchanges with } _

/-! ### The codec -/

theorem inv_respondCrc (p : s.ctl.phase = .exec) (c : Half) (op : Byte) (h : s.Inv) :
    (respondCrc c op s).Inv := by
  obtain ⟨steady, busy, act⟩ := (inv_exec_done_iff (.inl p)).mp h
  obtain ⟨tens, le, -⟩ := steady.results
  exact inv_respond (steady.setResults c s.regs.lastPos s.regs.lastSta s.regs.motionEnc tens le) busy act _

/-! ### Every move -/

theorem CoreMove.inv (m : CoreMove s t) (h : s.Inv) : t.Inv := by
  have fault (p : s.ctl.phase = .exec) (c : FaultCode) : (raiseFault c s).Inv := by
    obtain ⟨steady, busy, act⟩ := (inv_exec_done_iff (.inl p)).mp h
    exact inv_raiseFault steady busy act c
  cases m with
  | accept p => exact inv_acceptNext p h
  | complete p => exact inv_complete p h
  | illegal p _ _ => exact fault p _
  | sessionClosed p _ => exact fault p _
  | notActivated p _ _ => exact fault p _
  | openCheck p run => exact inv_openCheck p run h
  | openTransport p _ => exact inv_openTransport p h
  | closeCheck p run => exact inv_closeCheck p run h
  | closeTransport p _ => exact inv_closeTransport p h
  | startActivation p run opened => exact inv_startActivation p run opened h
  | sendClear p _ => exact inv_sendClear p h
  | settleClear p _ => exact inv_settle (by rw [p]; rfl) .aAct rfl nofun _ h
  | sendActivate p _ => exact inv_sendActivate p h
  | settleActivate p _ => exact inv_settle (by rw [p]; rfl) .aDisc rfl nofun _ h
  | discard p _ => exact inv_discard p h
  | sendPoll p _ => exact inv_sendPoll p h
  | readPoll p _ => exact inv_readPoll p h
  | pollWait p _ => exact inv_pollWait p h
  | buildMotion p run opened act => exact inv_buildMotion p run opened act h
  | sendMotion p run => exact inv_sendMotion p run h
  | readAck p run => exact inv_readAck p run h
  | startStatus p _ run rsv opened act => exact inv_startStatus p run rsv opened act h
  | sendStatus p _ run rsv => exact inv_sendStatus p run rsv h
  | readStatus p _ run rsv => exact inv_readStatus p run rsv h
  | crcInit p _ => exact inv_respondCrc p _ _ h
  | crcByte p _ => exact inv_respondCrc p _ _ h

/-! ### The other agents and the reset input -/

theorem inv_presentRequest (x : HostId) (w : BitVec 128) (h : s.Inv) : (presentRequest x w s).Inv := by
  obtain ⟨phase, activation, faults, results, buffers, held, trace⟩ := h
  exact ⟨phase, activation, faults, results, buffers, holdRequest_rising held, trace⟩

/-- Frames are written in open sessions only (10_state.md R22). -/
theorem sessionOpen_of_frameInProgress (h : s.Inv) {f : Frame} (sending : frameInProgress s = some f) :
    s.regs.sessionOpen = true := by
  have inHandshake (inside : s.ctl.phase.inActivation = true) : s.regs.sessionOpen = true := by
    obtain ⟨-, run, -⟩ := (inv_handshake_iff inside).mp h
    exact run.opened
  unfold frameInProgress at sending
  split at sending
  · exact inHandshake (by simp [*, Phase.inActivation])
  · exact inHandshake (by simp [*, Phase.inActivation])
  · exact inHandshake (by simp [*, Phase.inActivation])
  · obtain ⟨-, exchanges, -⟩ := (inv_xTx_iff ‹_›).mp h
    exact exchanges.opened
  · cases sending

/-- A reset ends an open session with one `TClose`, perhaps after a part of a frame
(70_reset_and_hazards.md R261, R262). -/
theorem resetTrace_cases (h : s.Inv) (sent : Nat) :
    (s.regs.sessionOpen = false ∧ resetTrace sent s = []) ∨
    (s.regs.sessionOpen = true ∧ resetTrace sent s = [.closed s.ctl.now]) ∨
    (s.regs.sessionOpen = true ∧
      ∃ part, resetTrace sent s = [.cut part s.ctl.now] ++ [.closed s.ctl.now]) := by
  unfold resetTrace
  cases sending : frameInProgress s with
  | none => cases opened : s.regs.sessionOpen <;> simp
  | some f =>
    by_cases noByte : sent = 0 <;> simp [sessionOpen_of_frameInProgress h sending, noByte]

/-- After a reset the block owns no transport, and what the transport has seen still fits. -/
theorem traceFits_resetTrace (h : s.Inv) (sent : Nat) :
    framesBuilt s.params.statusAddr (s.link.trace ++ resetTrace sent s) = true ∧
    ownership (s.link.trace ++ resetTrace sent s) = some false ∧
    (exchange (s.link.trace ++ resetTrace sent s)).isSome = true := by
  obtain ⟨steady, -⟩ := (inv_iff s).mp h
  have owned := steady.owned
  rcases resetTrace_cases h sent with ⟨opened, e⟩ | ⟨opened, e⟩ | ⟨opened, part, e⟩ <;>
    rw [e] <;> rw [opened] at owned
  · rw [List.append_nil]
    exact ⟨steady.built, owned, steady.exchanged⟩
  · refine ⟨?_, ?_, exchange_isSome steady.exchanged (by simp)⟩
    · rw [framesBuilt_append, steady.built]; rfl
    · rw [ownership_append, owned]; rfl
  · rw [← List.append_assoc]
    refine ⟨?_, ?_, exchange_isSome (exchange_isSome steady.exchanged (by simp)) (by simp)⟩
    · rw [framesBuilt_append, framesBuilt_append, steady.built]; rfl
    · rw [ownership_append, ownership_append, owned]; rfl

theorem inv_resetInput (sent : Nat) (h : s.Inv) : (resetInput sent s).Inv := by
  obtain ⟨built, owned, exchanged⟩ := traceFits_resetTrace h sent
  have steady : (resetInput sent s).Steady :=
    { closedReset := fun _ => rfl
      faults := ⟨BitVec.getLsbD_zero, fun fault => absurd rfl fault⟩
      results := ⟨rfl, Nat.zero_le _, rfl, nofun⟩
      txLength := Nat.zero_le _
      rxLength := Nat.zero_le _
      rxLen := rfl
      held := .nil
      built := built
      owned := owned
      exchanged := exchanged }
  exact (inv_idle_iff rfl).mpr ⟨steady, rfl, nofun⟩

/-- Settles O54: a step is a move of the core, of another agent or the reset input, and each keeps the
invariant. -/
theorem everyStepKeepsTheInvariant : Obligations.EveryStepKeepsTheInvariant := by
  intro s t h next
  rcases step_next next with ⟨-, core⟩ | ⟨es, -, core⟩ | ⟨x, w, es, -, rfl⟩ | ⟨x, idx, width, es, -, rfl⟩ |
    ⟨bs, es, -, rfl⟩ | ⟨sent, es, -, rfl⟩
  · exact (coreStep_move core).inv h
  · exact (coreStep_move core).inv (s := s.withInputs es) h
  · exact inv_presentRequest x w (s := s.withInputs es) h
  · exact h
  · exact h
  · exact inv_resetInput sent (s := s.withInputs es) h

end Sys2Proof.Machine

/-! What one step may write: in the register file one of the writes of `RegWrite`, and beside it the latches,
DEADLINE and time as `Writes` says (10_state.md R21–R35). -/

namespace Sys2Proof.Machine

/-- What a core step may make of the registers `r`, at the control point `p` of a request that runs the
commands `runs` (10_state.md R22–R32, R35). -/
inductive RegWrite (p : Phase) (runs : Byte → Bool) (r : Regs) : Regs → Prop where
  | none : RegWrite p runs r r
  | acceptance (idle : p = .idle) (op : Byte) : RegWrite p runs r { r with busy := true, lastOp := op }
  | completion (done : p = .done) (c : FaultCode) :
      RegWrite p runs r { r with lastFault := c, faultLog := logFault c r.faultLog, busy := false }
  | session (point : p = .oOpen ∧ runs 0x01#8 = true ∨ p = .oClose ∧ runs 0x02#8 = true) (b : Bool) :
      RegWrite p runs r { r with sessionOpen := b, actState := .reset }
  | activation (run : runs 0x03#8 = true) (point : p = .exec ∨ p = .aPrx ∨ p = .aPwait) (a : ActState) :
      RegWrite p runs r { r with actState := a }
  | crc (point : p = .exec) (run : runs 0x10#8 = true ∨ runs 0x11#8 = true) (c : Half) :
      RegWrite p runs r { r with crcAcc := c }
  | position (point : p = .xRx) (run : runs 0x05#8 = true) (v : StatusValue) :
      RegWrite p runs r { r with lastPos := v.pos }
  | current (point : p = .xRx) (run : runs 0x06#8 = true) (v : StatusValue) :
      RegWrite p runs r { r with lastCur := v.cur }
  | status (point : p = .xRx) (run : runs 0x07#8 = true) (v : StatusValue) :
      RegWrite p runs r { r with lastPos := v.pos, lastCur := v.cur, lastSta := v.sta }
  | motion (point : p = .exec) (run : runs 0x04#8 = true) (enc : BitVec 24) :
      RegWrite p runs r { r with motionEnc := enc }

/-- What a step without a reset input may write of the block's own registers, and that time never falls. -/
structure Writes (s t : State) : Prop where
  params : t.params = s.params
  latch : t.latch ≠ s.latch → s.ctl.phase = .idle
  deadline : t.ctl.deadline ≠ s.ctl.deadline → s.ctl.phase = .aClr ∧ s.runs 0x03#8 = true
  now : s.ctl.now ≤ t.ctl.now
  regs : RegWrite s.ctl.phase (fun op => s.runs op) s.regs t.regs

variable {s t : State}

/-- The steps that write neither the latches nor DEADLINE. -/
theorem Writes.ofRegs (params : t.params = s.params) (latch : t.latch = s.latch)
    (deadline : t.ctl.deadline = s.ctl.deadline) (now : s.ctl.now ≤ t.ctl.now)
    (regs : RegWrite s.ctl.phase (fun op => s.runs op) s.regs t.regs) : Writes s t :=
  ⟨params, absurd latch, absurd deadline, now, regs⟩

/-! ### The steps with more than one outcome -/

theorem writes_acceptNext (p : s.ctl.phase = .idle) : Writes s (acceptNext s) := by
  rcases acceptNext_cases s with e | ⟨k, x, w, -, e⟩ <;> rw [e]
  · exact .ofRegs rfl rfl rfl le_rfl .none
  · exact ⟨rfl, fun _ => p, absurd rfl, le_rfl, .acceptance p _⟩

theorem writes_openCheck : Writes s (openCheck s) := by
  unfold openCheck
  split <;> exact .ofRegs rfl rfl rfl le_rfl .none

theorem writes_closeCheck : Writes s (closeCheck s) := by
  unfold closeCheck
  split <;> exact .ofRegs rfl rfl rfl le_rfl .none

theorem writes_openTransport (p : s.ctl.phase = .oOpen) (run : s.runs 0x01#8 = true) :
    Writes s (openTransport s) := by
  unfold openTransport
  split
  · exact .ofRegs rfl rfl rfl (Nat.le_add_right _ _) (.session (.inl ⟨p, run⟩) true)
  · exact .ofRegs rfl rfl rfl (Nat.le_add_right _ _) .none

theorem writes_readPoll (p : s.ctl.phase = .aPrx) (run : s.runs 0x03#8 = true) :
    Writes s (rxReadThen statusLen onPoll s) := by
  rcases rxReadThen_cases statusLen onPoll s with ⟨-, e⟩ | ⟨-, e⟩ <;> rw [e]
  · exact .ofRegs rfl rfl rfl le_rfl .none
  · rcases onPoll_cases (s.link.readBytes statusLen)
      (rxReadReturns statusLen (s.link.readBytes statusLen) s) with ⟨-, e⟩ | ⟨-, -, e⟩ | ⟨-, -, e⟩ <;> rw [e]
    · exact .ofRegs rfl rfl rfl (Nat.le_add_right _ _) (.activation run (.inr (.inl p)) .activated)
    · exact .ofRegs rfl rfl rfl (Nat.le_add_right _ _) (.activation run (.inr (.inl p)) .timedOut)
    · exact .ofRegs rfl rfl rfl (Nat.le_add_right _ _) .none

theorem writes_pollWait (p : s.ctl.phase = .aPwait) (run : s.runs 0x03#8 = true) :
    Writes s (afterPollWait (waitTicks (pollWait s) s)) := by
  rcases afterPollWait_cases (waitTicks (pollWait s) s) with ⟨-, e⟩ | ⟨-, e⟩ <;> rw [e]
  · exact .ofRegs rfl rfl rfl (Nat.le_add_right _ _) (.activation run (.inr (.inr p)) .timedOut)
  · exact .ofRegs rfl rfl rfl (Nat.le_add_right _ _) .none

theorem writes_readAck : Writes s (rxReadThen ackLen onWriteAck s) := by
  rcases rxReadThen_cases ackLen onWriteAck s with ⟨-, e⟩ | ⟨-, e⟩ <;> rw [e]
  · exact .ofRegs rfl rfl rfl le_rfl .none
  · rcases onWriteAck_cases (s.link.readBytes ackLen)
      (rxReadReturns ackLen (s.link.readBytes ackLen) s) with ⟨c, -, e⟩ | ⟨-, e⟩ <;> rw [e] <;>
      exact .ofRegs rfl rfl rfl (Nat.le_add_right _ _) .none

theorem writes_readStatus {keep : StatusValue → State → State} (p : s.ctl.phase = .xRx)
    (run : keepOf s.latch.op = some keep) (rsv : s.latch.rsv = 0#24) :
    Writes s (rxReadThen statusLen (onStatus keep) s) := by
  rcases rxReadThen_cases statusLen (onStatus keep) s with ⟨-, e⟩ | ⟨-, e⟩ <;> rw [e]
  · exact .ofRegs rfl rfl rfl le_rfl .none
  rcases onStatus_cases keep (s.link.readBytes statusLen)
    (rxReadReturns statusLen (s.link.readBytes statusLen) s) with ⟨c, -, e⟩ | ⟨v, -, e⟩ <;> rw [e]
  · exact .ofRegs rfl rfl rfl (Nat.le_add_right _ _) .none
  · rcases keepOf_some run with ⟨op, rfl⟩ | ⟨op, rfl⟩ | ⟨op, rfl⟩
    · exact .ofRegs rfl rfl rfl (Nat.le_add_right _ _) (.position p (runs_of_op rsv op) v)
    · exact .ofRegs rfl rfl rfl (Nat.le_add_right _ _) (.current p (runs_of_op rsv op) v)
    · exact .ofRegs rfl rfl rfl (Nat.le_add_right _ _) (.status p (runs_of_op rsv op) v)

/-! ### Every step -/

theorem CoreMove.writes (m : CoreMove s t) : Writes s t := by
  cases m with
  | accept p => exact writes_acceptNext p
  | complete p => exact .ofRegs rfl rfl rfl le_rfl (.completion p _)
  | illegal | sessionClosed | notActivated | discard | startStatus => exact .ofRegs rfl rfl rfl le_rfl .none
  | settleClear | sendActivate | settleActivate | sendPoll | sendMotion | sendStatus =>
    exact .ofRegs rfl rfl rfl (Nat.le_add_right _ _) .none
  | openCheck => exact writes_openCheck
  | openTransport p run => exact writes_openTransport p run
  | closeCheck => exact writes_closeCheck
  | closeTransport p run =>
    exact .ofRegs rfl rfl rfl (Nat.le_add_right _ _) (.session (.inr ⟨p, run⟩) false)
  | startActivation p run _ => exact .ofRegs rfl rfl rfl le_rfl (.activation run (.inl p) .activating)
  | sendClear p run => exact ⟨rfl, absurd rfl, fun _ => ⟨p, run⟩, Nat.le_add_right _ _, .none⟩
  | readPoll p run => exact writes_readPoll p run
  | pollWait p run => exact writes_pollWait p run
  | buildMotion p run _ _ => exact .ofRegs rfl rfl rfl le_rfl (.motion p run _)
  | readAck => exact writes_readAck
  | readStatus p _ run rsv => exact writes_readStatus p run rsv
  | crcInit p run => exact .ofRegs rfl rfl rfl le_rfl (.crc p (.inl run) _)
  | crcByte p run => exact .ofRegs rfl rfl rfl le_rfl (.crc p (.inr run) _)

theorem AgentMove.writes (m : AgentMove s t) : Writes s t :=
  .ofRegs m.params m.latch (by rw [m.ctl]) (by rw [m.ctl]) (by rw [m.regs]; exact .none)

/-- Any step but a reset input's. -/
theorem step_writes (next : step s = .next t) (noReset : s.resetNext = false) : Writes s t := by
  rcases step_moves next noReset with m | ⟨es, -, m⟩ | m
  · exact m.writes
  · exact ⟨m.writes.params, m.writes.latch, m.writes.deadline, m.writes.now, m.writes.regs⟩
  · exact m.writes

/-- Settles O37: each write of `RegWrite` names its control point and its command. -/
theorem eachRegisterHasItsWriters : Obligations.EachRegisterHasItsWriters := by
  intro s t next noReset
  obtain ⟨params, latch, deadline, -, regs⟩ := step_writes next noReset
  refine ⟨params, latch, ?_⟩
  generalize t.regs = r at regs
  cases regs with
  | none => simpa using deadline
  | acceptance idle op => simpa [idle] using deadline
  | completion done c => simpa [done] using deadline
  | session point b => rcases point with point | point <;> simpa [point] using deadline
  | activation run point a => simpa [run, point] using deadline
  | crc point run c => simpa [point, run] using deadline
  | position point run v => simpa [point, run] using deadline
  | current point run v => simpa [point, run] using deadline
  | status point run v => simpa [point, run] using deadline
  | motion point run enc => simpa [point, run] using deadline

/-- No write clears a bit of FAULT_LOG (10_state.md R26). -/
theorem RegWrite.faultLog_sticky {p : Phase} {runs : Byte → Bool} {r r' : Regs} (w : RegWrite p runs r r')
    {k : Nat} (set : r.faultLog.getLsbD k = true) : r'.faultLog.getLsbD k = true := by
  cases w with
  | completion _ c => exact getLsbD_logFault_of_set c set
  | _ => exact set

/-- Settles O39, from what a step may write. -/
theorem faultLogIsStickyAndTimeNeverFalls : Obligations.FaultLogIsStickyAndTimeNeverFalls := by
  intro s t next noReset
  have w := step_writes next noReset
  exact ⟨fun _ set => w.regs.faultLog_sticky set, w.now⟩

end Sys2Proof.Machine

/-! The status bank and the device registers a frame names (20_memory.md R51–R55), and what one step makes of
the transport (R56–R60, R72). -/

namespace Sys2Proof.Machine

/-! ### The registers a frame names -/

/-- The registers of a write request, in terms of the header's address bytes. -/
theorem registerWrites_buildWriteReq (p0 p1 p2 p3 p4 p5 : Byte) :
    registerWrites (buildWriteReq [p0, p1, p2, p3, p4, p5]) =
      [(reqAddr, p0 ++ p1), (reqAddr + 1#16, p2 ++ p3), (reqAddr + 2#16, p4 ++ p5)] := by
  have fields : registerWrites (buildWriteReq [p0, p1, p2, p3, p4, p5]) =
      [(hiByte reqAddr ++ loByte reqAddr, p0 ++ p1), (hiByte reqAddr ++ loByte reqAddr + 1#16, p2 ++ p3),
        (hiByte reqAddr ++ loByte reqAddr + 2#16, p4 ++ p5)] := rfl
  rw [fields, hiByte_append_loByte]

/-- The registers of a status read. -/
theorem registerReads_buildStatusReadRequest (addr : Half) :
    registerReads (buildStatusReadRequest addr) = [addr, addr + 1#16, addr + 2#16] := by
  have fields : registerReads (buildStatusReadRequest addr) = [hiByte addr ++ loByte addr,
      hiByte addr ++ loByte addr + 1#16, hiByte addr ++ loByte addr + 2#16] := rfl
  rw [fields, hiByte_append_loByte]

/-- Settles O16: the address is the frame's bytes 2 and 3. -/
theorem framesNameTheirRegisters : Obligations.FramesNameTheirRegisters :=
  ⟨registerWrites_buildWriteReq, registerReads_buildStatusReadRequest⟩

/-! ### The status bank -/

/-- Where the fields of entry 0 stand (20_memory.md R52). -/
theorem statusFields (zeros : BitVec 24) (fault : BitVec 4) (act : BitVec 2) (opened busy : Bool) :
    (zeros ++ fault ++ act ++ BitVec.ofBool opened ++ BitVec.ofBool busy).getLsbD 0 = busy ∧
    (zeros ++ fault ++ act ++ BitVec.ofBool opened ++ BitVec.ofBool busy).getLsbD 1 = opened ∧
    (zeros ++ fault ++ act ++ BitVec.ofBool opened ++ BitVec.ofBool busy).extractLsb' 2 2 = act ∧
    (zeros ++ fault ++ act ++ BitVec.ofBool opened ++ BitVec.ofBool busy).extractLsb' 4 4 = fault ∧
    (zeros ++ fault ++ act ++ BitVec.ofBool opened ++ BitVec.ofBool busy).extractLsb' 8 24 = zeros := by
  have skipFlags {start len : Nat} (le : 2 ≤ start) :
      (zeros ++ fault ++ act ++ BitVec.ofBool opened ++ BitVec.ofBool busy).extractLsb' start len =
        (zeros ++ fault ++ act).extractLsb' (start - 1 - 1) len := by
    rw [BitVec.extractLsb'_append_eq_of_le (by omega), BitVec.extractLsb'_append_eq_of_le (by omega)]
  refine ⟨?_, ?_, ?_, ?_, ?_⟩
  · rw [BitVec.getLsbD_append, if_pos (by decide), BitVec.getLsbD_ofBool]
    rfl
  · rw [BitVec.getLsbD_append, if_neg (by decide), BitVec.getLsbD_append, if_pos (by decide),
      BitVec.getLsbD_ofBool]
    rfl
  · rw [skipFlags (by decide), BitVec.extractLsb'_append_eq_right]
  · rw [skipFlags (by decide), BitVec.extractLsb'_append_eq_of_le (by decide),
      BitVec.extractLsb'_append_eq_right]
  · rw [skipFlags (by decide), BitVec.extractLsb'_append_eq_of_le (by decide),
      BitVec.extractLsb'_append_eq_left]

/-- The unused entries read 0. -/
theorem bankWord_unused (r : Regs) {idx : BitVec 4} (unused : 8#4 ≤ idx) : bankWord r idx = 0#32 := by
  have le : 8 ≤ idx.toNat := unused
  unfold bankWord
  split
  case h_9 => rfl
  all_goals omega

/-- Settles O41: entry 0 by its fields, entries 1 to 7 as zeros above a register, the rest as unused. -/
theorem bankWordsHaveTheirLayout : Obligations.BankWordsHaveTheirLayout := by
  intro r
  have zeroExtended {n : Nat} (le : n ≤ 32) (x : BitVec n) := (BitVec.setWidth_eq_append (x := x) le).symm
  obtain ⟨busy, opened, act, fault, zeros⟩ :=
    statusFields 0#24 r.lastFault.code r.actState.code r.sessionOpen r.busy
  exact ⟨busy, opened, act, fault, zeros, zeroExtended (by decide) r.faultLog,
    zeroExtended (by decide) r.crcAcc, zeroExtended (by decide) r.lastPos,
    zeroExtended (by decide) r.lastCur, zeroExtended (by decide) r.lastSta,
    zeroExtended (by decide) r.motionEnc, zeroExtended (by decide) r.lastOp, fun _ => bankWord_unused r⟩

/-- A listed input is the step's move. -/
theorem step_of_input {s : State} {e : Event} {es : List Event} (inputs : s.hosts.inputs = e :: es) :
    step s = agentStep e (s.withInputs es) := by
  simp [step, inputs]

/-- Settles O42: the read is the move `readBank` of its host. -/
theorem bankReadsHaveNoSideEffect : Obligations.BankReadsHaveNoSideEffect := by
  intro s h idx width es inputs
  calc step s = agentStep (.bankRead h idx width) (s.withInputs es) := step_of_input inputs
    _ = .next (readBank h idx width (s.withInputs es)) := rfl

/-! ### The transport -/

/-- What a core step may make of the transport: nothing, or one of its transactions (20_memory.md R56–R60),
with the control points of those that take or replace pending bytes. -/
inductive LinkMove (s : State) : Link → Prop where
  | none : LinkMove s s.link
  | write (f : Frame) : LinkMove s (txWrite f s).link
  | close : LinkMove s (tClose s).link
  | read (point : s.ctl.phase = .xRx ∨ s.ctl.phase = .aPrx) (n : Nat) (r : Frame) :
      LinkMove s (rxReadReturns n r s).link
  | discard (point : s.ctl.phase = .aDisc) : LinkMove s (rxDiscard s).link
  | openSession (point : s.ctl.phase = .oOpen) : LinkMove s (tOpen s).link

variable {s t : State}

/-! What ends or goes on with a command after its transaction leaves the transport alone. -/

@[simp] theorem acceptNext_link (s : State) : (acceptNext s).link = s.link := by
  rcases acceptNext_cases s with e | ⟨k, h, w, -, e⟩ <;> simp [e]

@[simp] theorem openCheck_link (s : State) : (openCheck s).link = s.link := by
  unfold openCheck
  split <;> rfl

@[simp] theorem closeCheck_link (s : State) : (closeCheck s).link = s.link := by
  unfold closeCheck
  split <;> rfl

@[simp] theorem openTransport_link (s : State) : (openTransport s).link = (tOpen s).link := by
  unfold openTransport
  split <;> rfl

@[simp] theorem afterPollWait_link (s : State) : (afterPollWait s).link = s.link := by
  rcases afterPollWait_cases s with ⟨-, e⟩ | ⟨-, e⟩ <;> rw [e] <;> rfl

@[simp] theorem onPoll_link (r : Frame) (s : State) : (onPoll r s).link = s.link := by
  rcases onPoll_cases r s with ⟨-, e⟩ | ⟨-, -, e⟩ | ⟨-, -, e⟩ <;> rw [e] <;> rfl

@[simp] theorem onWriteAck_link (r : Frame) (s : State) : (onWriteAck r s).link = s.link := by
  rcases onWriteAck_cases r s with ⟨c, -, e⟩ | ⟨-, e⟩ <;> rw [e] <;> rfl

theorem onStatus_link {op : Byte} {keep : StatusValue → State → State} (run : keepOf op = some keep)
    (r : Frame) (s : State) : (onStatus keep r s).link = s.link := by
  rcases onStatus_cases keep r s with ⟨c, -, e⟩ | ⟨v, -, e⟩ <;> rw [e]
  · rfl
  · rcases keepOf_some run with ⟨-, rfl⟩ | ⟨-, rfl⟩ | ⟨-, rfl⟩ <;> rfl

/-- A read that hangs leaves the transport, and one that returns is a transaction. -/
theorem linkMove_rxReadThen (point : s.ctl.phase = .xRx ∨ s.ctl.phase = .aPrx) (n : Nat)
    {k : Frame → State → State} (keeps : ∀ r u, (k r u).link = u.link) :
    LinkMove s (rxReadThen n k s).link := by
  rcases rxReadThen_cases n k s with ⟨-, e⟩ | ⟨-, e⟩ <;> rw [e]
  · exact .none
  · rw [keeps]
    exact .read point n _

/-- Every core step makes at most one transaction. -/
theorem CoreMove.link (m : CoreMove s t) : LinkMove s t.link := by
  cases m with
  | accept => rw [acceptNext_link]; exact .none
  | openCheck => rw [openCheck_link]; exact .none
  | closeCheck => rw [closeCheck_link]; exact .none
  | pollWait => rw [afterPollWait_link]; exact .none
  | complete | illegal | sessionClosed | notActivated | startActivation | settleClear | settleActivate
  | buildMotion | startStatus | crcInit | crcByte => exact .none
  | sendClear | sendActivate | sendPoll | sendMotion | sendStatus => exact .write _
  | openTransport p => rw [openTransport_link]; exact .openSession p
  | closeTransport => exact .close
  | discard p => exact .discard p
  | readPoll p => exact linkMove_rxReadThen (.inr p) statusLen onPoll_link
  | readAck p => exact linkMove_rxReadThen (.inl p) ackLen onWriteAck_link
  | readStatus p _ run => exact linkMove_rxReadThen (.inl p) statusLen (onStatus_link run)

/-- Every transaction adds its event to the record. -/
theorem LinkMove.trace_grows {l : Link} (m : LinkMove s l) : ∃ es, l.trace = s.link.trace ++ es := by
  cases m with
  | none => exact ⟨[], (List.append_nil _).symm⟩
  | write | close | read | discard | openSession => exact ⟨[_], rfl⟩

/-- A write and a `TClose` take no byte (20_memory.md R56, R60). -/
theorem LinkMove.pending_kept {l : Link} (m : LinkMove s l)
    (xRx : s.ctl.phase ≠ .xRx) (aPrx : s.ctl.phase ≠ .aPrx) (aDisc : s.ctl.phase ≠ .aDisc)
    (oOpen : s.ctl.phase ≠ .oOpen) : ∃ bs, l.pending = s.link.pending ++ bs := by
  cases m with
  | none | close => exact ⟨[], (List.append_nil _).symm⟩
  | write => exact ⟨s.link.draw.arrive, rfl⟩
  | read point => exact absurd point (not_or.mpr ⟨xRx, aPrx⟩)
  | discard point => exact absurd point aDisc
  | openSession point => exact absurd point oOpen

/-- Settles O40: a step makes at most one transaction, or is another agent's move. -/
theorem pendingBytesStayUntilConsumed : Obligations.PendingBytesStayUntilConsumed := by
  intro s t next noReset
  rcases step_moves next noReset with m | ⟨es, -, m⟩ | m
  · exact ⟨m.link.trace_grows, m.link.pending_kept⟩
  · exact ⟨m.link.trace_grows, m.link.pending_kept⟩
  · exact ⟨⟨[], by rw [m.trace, List.append_nil]⟩, fun _ _ _ _ => m.pending⟩

end Sys2Proof.Machine

/-! The encodings of 30_encoding.md: a sent frame is its builder's output (R82–R85), decoding undoes encoding
(R75–R87), the requests that are no command (R77, R78), the fields of the response word (R80), and the
literals of host programs (R90). -/

namespace Sys2Proof.Machine

/-! ### The frames of an encoding -/

theorem encode_frameClear : encode .frameClear = .sent buildClearRequest := by
  rw [buildClearRequest_eq]
  rfl

theorem encode_frameActivate : encode .frameActivate = .sent buildActivateRequest := by
  rw [buildActivateRequest_eq]
  rfl

theorem encode_frameMotion (p v f : Byte) (crc : Half) :
    encode (.frameMotion p v f crc) = .sent (motionFrame p v f crc) := by
  rw [motionFrame, writeHeader_eq]
  rfl

theorem hiByte_regCount : hiByte regCount = 0x00#8 := by decide

theorem loByte_regCount : loByte regCount = 0x03#8 := by decide

theorem encode_frameStatusRead (addr crc : Half) :
    encode (.frameStatusRead addr crc) = .sent (statusReadFrame addr crc) := by
  rw [statusReadFrame, hiByte_regCount, loByte_regCount]
  rfl

/-- A well-formed motion frame is what the builder makes of its three bytes. -/
theorem motionFrame_of_wf {p v f : Byte} {crc : Half} (wf : (Instr.frameMotion p v f crc).wf = true) :
    motionFrame p v f crc = buildMotionBytes p v f := by
  obtain rfl : crc = _ := eq_of_beq wf
  rw [motionFrame, buildMotionBytes, buildWriteReq, appendCRC, writeHeader_eq]
  rfl

/-- A well-formed status read is what the builder makes of its address. -/
theorem statusReadFrame_of_wf {addr crc : Half} (wf : (Instr.frameStatusRead addr crc).wf = true) :
    statusReadFrame addr crc = buildStatusReadRequest addr := by
  obtain rfl : crc = _ := eq_of_beq wf
  rw [statusReadFrame, buildStatusReadRequest, appendCRC, hiByte_regCount, loByte_regCount]
  rfl

/-- Settles O4: the operands of a well-formed frame hold its trailer. -/
theorem encodedSentFramesAreBuilt : Obligations.EncodedSentFramesAreBuilt := by
  refine ⟨encode_frameClear, encode_frameActivate, fun p v f crc wf => ?_, fun addr crc wf => ?_⟩
  · rw [encode_frameMotion, motionFrame_of_wf wf]
  · rw [encode_frameStatusRead, statusReadFrame_of_wf wf]

/-- Settles O12, from the builder frames byte by byte. -/
theorem fixedFramesAreTheLiterals : Obligations.FixedFramesAreTheLiterals :=
  ⟨buildClearRequest_eq, buildActivateRequest_eq⟩

/-! ### Decoding what was encoded -/

/-- A command's word decodes as the request it was made of. -/
@[simp] theorem decode_commandRequest (op : Byte) (a0 a1 a2 : Word) :
    decode (commandRequest op a0 a1 a2) = decodeRequest ⟨op, 0#24, a0, a1, a2⟩ := by
  simp [decode, commandRequest]

/-- The byte of CRC_BYTE stands in A0[7:0]. -/
theorem decode_encode_crcByte (b : Byte) : decode (encode (.crcByte b)) = .ok (.crcByte b) := by
  have low : (b.setWidth 32).extractLsb' 0 8 = b := by
    rw [BitVec.extractLsb'_setWidth_of_le (by decide), BitVec.extractLsb'_eq_self]
  simp [encode, decodeRequest_of_op, low]

/-- A motion frame is neither of the constant ones: its first payload byte is 0x09 (R85). -/
theorem decode_encode_frameMotion (p v f : Byte) (crc : Half) :
    decode (encode (.frameMotion p v f crc)) = .ok (.frameMotion p v f crc) := by
  simp [encode, decode, decodeSent, decodeWritePayload]

theorem decode_encode_frameStatusRead (addr crc : Half) :
    decode (encode (.frameStatusRead addr crc)) = .ok (.frameStatusRead addr crc) := by
  simp [encode, decode, decodeSent]

/-- Settles O1, by the constructors: a command through its request, a frame through its bytes or its length. -/
theorem everyInstructionRoundTrips : Obligations.EveryInstructionRoundTrips := by
  intro i wf
  cases i with
  | openCmd | closeCmd | activate | getPosition | getCurrent | getStatus | crcInit | setPosition =>
    exact decode_commandRequest _ _ _ _
  | crcByte b => exact decode_encode_crcByte b
  | frameClear | frameActivate => rfl
  | frameMotion p v f crc => exact decode_encode_frameMotion p v f crc
  | frameStatusRead addr crc => exact decode_encode_frameStatusRead addr crc
  | frameWriteAck bytes =>
    have length : bytes.length = 8 := eq_of_beq wf
    simp [encode, decode, decodeReceived, length]
  | frameStatusResponse bytes =>
    have length : bytes.length = 11 := eq_of_beq wf
    simp [encode, decode, decodeReceived, length]

/-- Settles O2, by evaluating the decoder on the words. -/
theorem specWordsDecode : Obligations.SpecWordsDecode := by
  unfold Obligations.SpecWordsDecode
  decide +kernel

/-! ### Requests that are no command -/

/-- The opcodes of the commands (R76). -/
def commandOpcodes : List Byte :=
  [0x01#8, 0x02#8, 0x03#8, 0x04#8, 0x05#8, 0x06#8, 0x07#8, 0x10#8, 0x11#8]

/-- The opcodes no command has, as the ranges of R77. -/
theorem not_mem_commandOpcodes_iff (op : Byte) :
    op ∉ commandOpcodes ↔ op = 0x00#8 ∨ (0x08#8 ≤ op ∧ op ≤ 0x0F#8) ∨ 0x12#8 ≤ op := by
  simp only [commandOpcodes, List.mem_cons, List.not_mem_nil, or_false, not_or]
  constructor <;> intro h <;> bv_omega

/-- A request is no command exactly when RSV is not zero or no command has its opcode. -/
theorem decodeRequest_error_iff (r : Request) :
    (∃ e, decodeRequest r = .error e) ↔ r.rsv ≠ 0#24 ∨ r.op ∉ commandOpcodes := by
  simp only [commandOpcodes, List.mem_cons, List.not_mem_nil, or_false]
  constructor
  · rintro ⟨e, error⟩
    by_contra command
    obtain ⟨rsv, op⟩ := not_or.mp command
    rw [not_not] at rsv op
    rcases op with op | op | op | op | op | op | op | op | op <;>
      simp [decodeRequest_of_op rsv, op] at error
  · intro noCommand
    cases h : decodeRequest r with
    | error e => exact ⟨e, rfl⟩
    | ok i =>
      obtain ⟨rsv, command⟩ := decodeRequest_ok h
      rcases command with ⟨op, -⟩ | ⟨op, -⟩ | ⟨op, -⟩ | ⟨op, -⟩ | ⟨op, -⟩ | ⟨op, -⟩ | ⟨op, -⟩ | ⟨op, -⟩ |
        ⟨op, -⟩ <;> simp [rsv, op] at noCommand

/-- Settles O3: the ranges are the complement of the nine opcodes. -/
theorem reservedRequestsAreNoCommand : Obligations.ReservedRequestsAreNoCommand := by
  intro w
  rw [← not_mem_commandOpcodes_iff]
  exact decodeRequest_error_iff (Request.ofWord w)

/-! ### The response word -/

theorem Resp.masked_pos (r : Resp) : r.masked.pos = if r.fault = .none then r.pos else 0#8 := by
  unfold Resp.masked
  split <;> rfl

theorem Resp.masked_cur (r : Resp) : r.masked.cur = if r.fault = .none then r.cur else 0#12 := by
  unfold Resp.masked
  split <;> rfl

theorem Resp.masked_sta (r : Resp) : r.masked.sta = if r.fault = .none then r.sta else 0#8 := by
  unfold Resp.masked
  split <;> rfl

theorem Resp.masked_crc (r : Resp) : r.masked.crc = if r.fault = .none then r.crc else 0#16 := by
  unfold Resp.masked
  split <;> rfl

/-- Settles O28: each field stands above the ones below it. -/
theorem responseWordHasItsFields : Obligations.ResponseWordHasItsFields := by
  intro act r
  rw [← Resp.masked_pos, ← Resp.masked_cur, ← Resp.masked_sta, ← Resp.masked_crc, responseWord]
  refine ⟨BitVec.extractLsb'_append_eq_right, ?_, ?_, ?_, ?_, ?_, ?_, ?_, ?_⟩
  · rw [BitVec.extractLsb'_append_eq_of_le (by decide), BitVec.extractLsb'_append_eq_right]
  · iterate 2 rw [BitVec.extractLsb'_append_eq_of_le (by decide)]
    exact BitVec.extractLsb'_append_eq_right
  · iterate 3 rw [BitVec.extractLsb'_append_eq_of_le (by decide)]
    exact BitVec.extractLsb'_append_eq_right
  · iterate 4 rw [BitVec.extractLsb'_append_eq_of_le (by decide)]
    exact BitVec.extractLsb'_append_eq_right
  · iterate 5 rw [BitVec.extractLsb'_append_eq_of_le (by decide)]
    exact BitVec.extractLsb'_append_eq_right
  · iterate 6 rw [BitVec.extractLsb'_append_eq_of_le (by decide)]
    exact BitVec.extractLsb'_append_eq_right
  · iterate 7 rw [BitVec.extractLsb'_append_eq_of_le (by decide)]
    exact BitVec.extractLsb'_append_eq_right
  · iterate 7 rw [BitVec.extractLsb'_append_eq_of_le (by decide)]
    exact BitVec.extractLsb'_append_eq_left

/-! ### Host programs -/

/-- A literal assembles exactly when its value times 256 is an integer of 32 bits, which the word holds. -/
theorem Decimal.toWord_eq_some_iff (d : Decimal) (x : Word) :
    d.toWord = some x ↔ d.mantissa * 256 = x.toInt * 10 ^ d.places := by
  have positive : (0 : Int) < 10 ^ d.places := by positivity
  simp only [Decimal.toWord, Option.ite_none_right_eq_some, Option.some.injEq]
  constructor
  · rintro ⟨⟨divides, low, high⟩, rfl⟩
    rw [BitVec.toInt_ofInt_eq_self (by decide) low (Int.lt_of_le_sub_one high),
      Int.ediv_mul_cancel (Int.dvd_of_emod_eq_zero divides)]
  · intro scaled
    rw [scaled, Int.mul_emod_left, Int.mul_ediv_cancel _ positive.ne', BitVec.ofInt_toInt]
    exact ⟨⟨rfl, BitVec.le_toInt x, Int.le_sub_one_of_lt BitVec.toInt_lt⟩, rfl⟩

/-- Settles O48: the expansions are the definition's, and the literals scale exactly. -/
theorem hostLinesAssemble : Obligations.HostLinesAssemble :=
  ⟨fun _ => rfl, rfl, rfl, fun _ _ _ => rfl, Decimal.toWord_eq_some_iff⟩

end Sys2Proof.Machine

/-! Where the core sends or receives a wire frame, its step is that frame's meaning (30_encoding.md R88,
42_frame_builder.md R133). -/

namespace Sys2Proof.Machine

variable {s : State}

/-! ### The step of a running command, by its opcode -/

theorem step_of_activate (noInput : s.hosts.inputs = []) (running : s.ctl.phase ≠ .idle)
    (rsv : s.latch.rsv = 0#24) (op : s.latch.op = 0x03#8) : step s = execActivate s :=
  step_eq_exec (i := .activate) noInput running (by simp [decodeRequest_of_op rsv, op])

theorem step_of_setPosition (noInput : s.hosts.inputs = []) (running : s.ctl.phase ≠ .idle)
    (rsv : s.latch.rsv = 0#24) (op : s.latch.op = 0x04#8) :
    step s = execSetPosition s.latch.a0 s.latch.a1 s.latch.a2 s :=
  step_eq_exec (i := .setPosition _ _ _) noInput running (by simp [decodeRequest_of_op rsv, op])

/-- The three status commands run the same steps. -/
theorem step_of_keepOf {keep : StatusValue → State → State} (noInput : s.hosts.inputs = [])
    (running : s.ctl.phase ≠ .idle) (rsv : s.latch.rsv = 0#24) (run : keepOf s.latch.op = some keep) :
    step s = statusExchange keep s := by
  rcases keepOf_some run with ⟨op, rfl⟩ | ⟨op, rfl⟩ | ⟨op, rfl⟩
  · exact step_eq_exec (i := .getPosition) noInput running (by simp [decodeRequest_of_op rsv, op])
  · exact step_eq_exec (i := .getCurrent) noInput running (by simp [decodeRequest_of_op rsv, op])
  · exact step_eq_exec (i := .getStatus) noInput running (by simp [decodeRequest_of_op rsv, op])

/-- The opcodes of the status commands. -/
theorem exists_keepOf {op : Byte} (status : op = 0x05#8 ∨ op = 0x06#8 ∨ op = 0x07#8) :
    ∃ keep, keepOf op = some keep := by
  rcases status with rfl | rfl | rfl <;> exact ⟨_, rfl⟩

/-- A read that returns goes on with its bytes. -/
theorem rxReadThen_of_returns {n : Nat} {bytes : Frame} (k : Frame → State → State)
    (returns : s.link.draw.hang = false) (read : s.link.readBytes n = bytes) :
    rxReadThen n k s = k bytes (rxReadReturns n bytes s) := by
  simp [rxReadThen, returns, read]

/-! ### The steps that send or receive -/

theorem step_sendClear (noInput : s.hosts.inputs = []) (rsv : s.latch.rsv = 0#24)
    (p : s.ctl.phase = .aClr) (op : s.latch.op = 0x03#8) : step s = exec .frameClear s := by
  rw [step_of_activate noInput (by simp [p]) rsv op]
  simp [execActivate, exec, execFrameClear, p]

theorem step_sendActivate (noInput : s.hosts.inputs = []) (rsv : s.latch.rsv = 0#24)
    (p : s.ctl.phase = .aAct) (op : s.latch.op = 0x03#8) : step s = exec .frameActivate s := by
  rw [step_of_activate noInput (by simp [p]) rsv op]
  simp [execActivate, exec, execFrameActivate, p]

theorem step_sendPoll {crc : Half} (noInput : s.hosts.inputs = []) (rsv : s.latch.rsv = 0#24)
    (wf : (Instr.frameStatusRead s.params.statusAddr crc).wf = true) (p : s.ctl.phase = .aPtx)
    (op : s.latch.op = 0x03#8) : step s = exec (.frameStatusRead s.params.statusAddr crc) s := by
  rw [step_of_activate noInput (by simp [p]) rsv op]
  simp [execActivate, exec, execFrameStatusRead, p, statusReadFrame_of_wf wf]

theorem step_receivePoll {bytes : Frame} (noInput : s.hosts.inputs = []) (rsv : s.latch.rsv = 0#24)
    (p : s.ctl.phase = .aPrx) (op : s.latch.op = 0x03#8) (returns : s.link.draw.hang = false)
    (read : s.link.readBytes statusLen = bytes) : step s = exec (.frameStatusResponse bytes) s := by
  rw [step_of_activate noInput (by simp [p]) rsv op]
  simp [execActivate, exec, execFrameStatusResponse, p, rxReadThen_of_returns _ returns read]

theorem step_sendStatus {crc : Half} (noInput : s.hosts.inputs = []) (rsv : s.latch.rsv = 0#24)
    (wf : (Instr.frameStatusRead s.params.statusAddr crc).wf = true) (p : s.ctl.phase = .xTx)
    (status : s.latch.op = 0x05#8 ∨ s.latch.op = 0x06#8 ∨ s.latch.op = 0x07#8) :
    step s = exec (.frameStatusRead s.params.statusAddr crc) s := by
  obtain ⟨keep, run⟩ := exists_keepOf status
  rw [step_of_keepOf noInput (by simp [p]) rsv run]
  simp [statusExchange, exec, execFrameStatusRead, p, run, statusReadFrame_of_wf wf]

theorem step_sendMotion {p v f : Byte} {crc : Half} (noInput : s.hosts.inputs = [])
    (rsv : s.latch.rsv = 0#24) (wf : (Instr.frameMotion p v f crc).wf = true) (point : s.ctl.phase = .xTx)
    (op : s.latch.op = 0x04#8) (built : s.ctl.txBuf = buildMotionBytes p v f) :
    step s = exec (.frameMotion p v f crc) s := by
  rw [step_of_setPosition noInput (by simp [point]) rsv op]
  simp [execSetPosition, exec, execFrameMotion, point, op, built, motionFrame_of_wf wf]

theorem step_receiveAck {bytes : Frame} (noInput : s.hosts.inputs = []) (rsv : s.latch.rsv = 0#24)
    (p : s.ctl.phase = .xRx) (op : s.latch.op = 0x04#8) (returns : s.link.draw.hang = false)
    (read : s.link.readBytes ackLen = bytes) : step s = exec (.frameWriteAck bytes) s := by
  rw [step_of_setPosition noInput (by simp [p]) rsv op]
  simp [execSetPosition, exec, execFrameWriteAck, p, op, rxReadThen_of_returns _ returns read]

theorem step_receiveStatus {bytes : Frame} (noInput : s.hosts.inputs = []) (rsv : s.latch.rsv = 0#24)
    (p : s.ctl.phase = .xRx) (status : s.latch.op = 0x05#8 ∨ s.latch.op = 0x06#8 ∨ s.latch.op = 0x07#8)
    (returns : s.link.draw.hang = false) (read : s.link.readBytes statusLen = bytes) :
    step s = exec (.frameStatusResponse bytes) s := by
  obtain ⟨keep, run⟩ := exists_keepOf status
  rw [step_of_keepOf noInput (by simp [p]) rsv run]
  simp [statusExchange, exec, execFrameStatusResponse, p, run, rxReadThen_of_returns _ returns read]

/-- Settles O25: both sides are the same step, on the frame the builder makes or the read returns. -/
theorem stepRunsTheWireFrame : Obligations.StepRunsTheWireFrame := by
  intro s noInput rsv
  exact ⟨step_sendClear noInput rsv, step_sendActivate noInput rsv, fun _ => step_sendPoll noInput rsv,
    fun _ => step_sendStatus noInput rsv, fun _ _ _ _ => step_sendMotion noInput rsv,
    fun _ p op returns read _ => step_receiveAck noInput rsv p op returns read,
    fun _ p status returns read _ => step_receiveStatus noInput rsv p status returns read,
    fun _ p op returns read _ => step_receivePoll noInput rsv p op returns read⟩

end Sys2Proof.Machine

/-! Every acceptance is answered once (45_session_commands.md R190, R192): a step accepts, or completes, or
leaves BUSY and the two counts. -/

namespace Sys2Proof.Machine

variable {s t : State}

/-! ### What leaves the host side alone -/

@[simp] theorem openCheck_hosts (s : State) : (openCheck s).hosts = s.hosts := by
  unfold openCheck
  split <;> rfl

@[simp] theorem closeCheck_hosts (s : State) : (closeCheck s).hosts = s.hosts := by
  unfold closeCheck
  split <;> rfl

@[simp] theorem openTransport_hosts (s : State) : (openTransport s).hosts = s.hosts := by
  unfold openTransport
  split <;> rfl

@[simp] theorem afterPollWait_hosts (s : State) : (afterPollWait s).hosts = s.hosts := by
  rcases afterPollWait_cases s with ⟨-, e⟩ | ⟨-, e⟩ <;> rw [e] <;> rfl

@[simp] theorem onPoll_hosts (r : Frame) (s : State) : (onPoll r s).hosts = s.hosts := by
  rcases onPoll_cases r s with ⟨-, e⟩ | ⟨-, -, e⟩ | ⟨-, -, e⟩ <;> rw [e] <;> rfl

@[simp] theorem onWriteAck_hosts (r : Frame) (s : State) : (onWriteAck r s).hosts = s.hosts := by
  rcases onWriteAck_cases r s with ⟨c, -, e⟩ | ⟨-, e⟩ <;> rw [e] <;> rfl

theorem onStatus_hosts {op : Byte} {keep : StatusValue → State → State} (run : keepOf op = some keep)
    (r : Frame) (s : State) : (onStatus keep r s).hosts = s.hosts := by
  rcases onStatus_cases keep r s with ⟨c, -, e⟩ | ⟨v, -, e⟩ <;> rw [e]
  · rfl
  · rcases keepOf_some run with ⟨-, rfl⟩ | ⟨-, rfl⟩ | ⟨-, rfl⟩ <;> rfl

theorem rxReadThen_hosts (n : Nat) {k : Frame → State → State} (keeps : ∀ r u, (k r u).hosts = u.hosts) :
    (rxReadThen n k s).hosts = s.hosts := by
  rcases rxReadThen_cases n k s with ⟨-, e⟩ | ⟨-, e⟩ <;> rw [e]
  rw [keeps]
  rfl

/-- Between acceptance and completion the core leaves the host side alone. -/
theorem CoreMove.hosts_kept (m : CoreMove s t) (idle : s.ctl.phase ≠ .idle) (done : s.ctl.phase ≠ .done) :
    t.hosts = s.hosts := by
  cases m with
  | accept p => exact absurd p idle
  | complete p => exact absurd p done
  | openCheck => exact openCheck_hosts s
  | closeCheck => exact closeCheck_hosts s
  | openTransport => exact openTransport_hosts s
  | pollWait => exact afterPollWait_hosts _
  | readPoll => exact rxReadThen_hosts statusLen onPoll_hosts
  | readAck => exact rxReadThen_hosts ackLen onWriteAck_hosts
  | readStatus _ _ run => exact rxReadThen_hosts statusLen (onStatus_hosts run)
  | _ => rfl

/-- The idle core's only move is acceptance. -/
theorem CoreMove.eq_acceptNext (m : CoreMove s t) (idle : s.ctl.phase = .idle) : t = acceptNext s := by
  cases m with
  | accept => rfl
  | _ => simp_all only [reduceCtorEq]

/-- At DONE the core's only move is completion. -/
theorem CoreMove.eq_complete (m : CoreMove s t) (done : s.ctl.phase = .done) :
    t = Machine.complete s := by
  cases m with
  | complete => rfl
  | _ => simp_all only [reduceCtorEq]

/-- BUSY is written by acceptance and completion only (10_state.md R24). -/
theorem RegWrite.busy_kept {p : Phase} {runs : Byte → Bool} {r r' : Regs} (w : RegWrite p runs r r')
    (idle : p ≠ .idle) (done : p ≠ .done) : r'.busy = r.busy := by
  cases w with
  | acceptance p => exact absurd p idle
  | completion p => exact absurd p done
  | _ => rfl

/-! ### The count -/

/-- From `s` to `t` the acceptances grow by as much as the responses and the running command do. -/
def Balanced (s t : State) : Prop :=
  t.hosts.arbitrations + s.hosts.responses.length + (if s.regs.busy then 1 else 0) =
    s.hosts.arbitrations + t.hosts.responses.length + (if t.regs.busy then 1 else 0)

theorem Balanced.of_kept (arbitrations : t.hosts.arbitrations = s.hosts.arbitrations)
    (responses : t.hosts.responses = s.hosts.responses) (busy : t.regs.busy = s.regs.busy) :
    Balanced s t := by
  rw [Balanced, arbitrations, responses, busy]

theorem balanced_acceptNext (free : s.regs.busy = false) : Balanced s (acceptNext s) := by
  rcases acceptNext_cases s with e | ⟨k, h, w, -, e⟩ <;> rw [e]
  · exact .of_kept rfl rfl rfl
  · simp [Balanced, free]
    omega

theorem balanced_complete (running : s.regs.busy = true) : Balanced s (complete s) := by
  simp [Balanced, running]
  omega

/-- Every core move keeps the balance: BUSY is 0 at IDLE and 1 at DONE. -/
theorem CoreMove.balanced (m : CoreMove s t) (h : s.Inv) : Balanced s t := by
  by_cases idle : s.ctl.phase = .idle
  · rw [m.eq_acceptNext idle]
    exact balanced_acceptNext ((inv_idle_iff idle).mp h).2.1
  by_cases done : s.ctl.phase = .done
  · rw [m.eq_complete done]
    exact balanced_complete ((inv_exec_done_iff (.inr done)).mp h).2.1
  have hosts := m.hosts_kept idle done
  exact .of_kept (by rw [hosts]) (by rw [hosts]) (m.writes.regs.busy_kept idle done)

/-- Settles O56: other agents leave the counts, and every core move keeps the balance. -/
theorem oneResponsePerAcceptance : Obligations.OneResponsePerAcceptance := by
  intro s t h next noReset
  rcases step_moves next noReset with m | ⟨es, -, m⟩ | m
  · exact m.balanced h
  · exact m.balanced (s := s.withInputs es) h
  · exact Balanced.of_kept m.arbitrations m.responses (by rw [m.regs])

end Sys2Proof.Machine

/-! The CRC codec (41_crc_codec.md R110–R117): the residue law, what `checkCRC` accepts, and the step of the two
commands that work on CRC_ACC. -/

namespace Sys2Proof.Machine

/-! ### Folding a CRC into itself -/

/-- Folding the accumulator's low byte into it leaves the high byte, shifted down: the low eight bits cancel,
so only zeros leave the accumulator. -/
theorem crcStep_loByte (c : Half) : crcStep c (loByte c) = (hiByte c).setWidth 16 := by
  have cancelled : c ^^^ (loByte c).setWidth 16 = hiByte c ++ 0#8 := by
    calc c ^^^ (loByte c).setWidth 16 = (hiByte c ++ loByte c) ^^^ (0#8 ++ loByte c) := by
          rw [hiByte_append_loByte, BitVec.setWidth_eq_append (by decide)]
          rfl
      _ = hiByte c ++ 0#8 := by rw [BitVec.xor_append, BitVec.xor_zero, BitVec.xor_self]
  have zeros : ∀ k, k < 8 → (hiByte c ++ 0#8).getLsbD k = false := by
    intro k hk
    rw [BitVec.getLsbD_append, if_pos hk, BitVec.getLsbD_zero]
  rw [crcStep, cancelled, crcShifts_of_zeros 8 _ zeros]
  apply BitVec.eq_of_getLsbD_eq
  intro i hi
  rw [BitVec.getLsbD_ushiftRight, BitVec.getLsbD_append]
  simp [hi]

/-- Folding the only byte left in the accumulator into it leaves nothing. -/
theorem crcStep_setWidth (b : Byte) : crcStep (b.setWidth 16) b = 0x0000#16 := by
  rw [crcStep, BitVec.xor_self, crcShifts_of_zeros 8 _ fun _ _ => BitVec.getLsbD_zero, BitVec.zero_ushiftRight]

/-- A completed frame has CRC 0 (R117). -/
theorem crc16_appendCRC (body : Frame) : crc16 (appendCRC body) = 0x0000#16 := by
  rw [appendCRC, crc16_append]
  calc (crcTrailer (crc16 body)).foldl crcStep (crc16 body)
    _ = crcStep (crcStep (crc16 body) (loByte (crc16 body))) (hiByte (crc16 body)) := rfl
    _ = 0x0000#16 := by rw [crcStep_loByte, crcStep_setWidth]

/-! ### What `checkCRC` accepts -/

/-- `checkCRC` reads the last two bytes as a number, low byte first (R114). -/
theorem checkCRC_append_pair (body : Frame) (lo hi : Byte) :
    checkCRC (body ++ [lo, hi]) = (crc16 body == hi ++ lo) := by
  have number : lo.setWidth 16 ||| hi.setWidth 16 <<< 8 = hi ++ lo := by
    rw [BitVec.or_comm, ← BitVec.setWidth_append_eq_shiftLeft_setWidth_or, BitVec.setWidth_eq]
  simp [checkCRC, number]

/-- A number is two bytes put together exactly when they are its low and its high byte. -/
theorem eq_append_iff (c : Half) (lo hi : Byte) : c = hi ++ lo ↔ lo = loByte c ∧ hi = hiByte c := by
  constructor
  · rintro rfl
    exact ⟨(loByte_append hi lo).symm, (hiByte_append hi lo).symm⟩
  · rintro ⟨rfl, rfl⟩
    exact (hiByte_append_loByte c).symm

/-- Settles O6: the two bytes are compared as one number. -/
theorem checkCrcAcceptsExactlyTheTrailer : Obligations.CheckCrcAcceptsExactlyTheTrailer := by
  intro body lo hi
  rw [checkCRC_append_pair, beq_iff_eq]
  exact eq_append_iff (crc16 body) lo hi

theorem checkCRC_appendCRC (body : Frame) : checkCRC (appendCRC body) = true :=
  (checkCrcAcceptsExactlyTheTrailer body _ _).mpr ⟨rfl, rfl⟩

/-- Settles O5: the trailer's bytes take the accumulator away, the low byte first. -/
theorem appendedCrcLeavesNoResidue : Obligations.AppendedCrcLeavesNoResidue := fun body =>
  ⟨crc16_appendCRC body, checkCRC_appendCRC body⟩

/-! ### CRC_INIT and CRC_BYTE -/

theorem exec_crcInit {s : State} (p : s.ctl.phase = .exec) :
    exec .crcInit s = .next (respondCrc 0xFFFF#16 0x10#8 s) := by
  simp [exec, execCrcInit, p]

theorem exec_crcByte (b : Byte) {s : State} (p : s.ctl.phase = .exec) :
    exec (.crcByte b) s = .next (respondCrc (crcStep s.regs.crcAcc b) 0x11#8 s) := by
  simp [exec, execCrcByte, p]

/-- Settles O8: both commands answer `respondCrc`. -/
theorem crcCommandsExecute : Obligations.CrcCommandsExecute := fun _ p =>
  ⟨exec_crcInit p, fun b => exec_crcByte b p⟩

end Sys2Proof.Machine

/-! Only CRC_INIT and CRC_BYTE use CRC_ACC (41_crc_codec.md R118): every other operation commutes with a change
of CRC_ACC. -/

namespace Sys2Proof.Machine

/-- The state with another CRC_ACC. -/
def setCrcAcc (c : Half) (s : State) : State :=
  { s with regs := { s.regs with crcAcc := c } }

@[simp] theorem setCrcAcc_latch (c : Half) (s : State) : (setCrcAcc c s).latch = s.latch := rfl

@[simp] theorem setCrcAcc_ctl (c : Half) (s : State) : (setCrcAcc c s).ctl = s.ctl := rfl

/-- The operation neither depends on CRC_ACC nor writes it. -/
def IgnoresCrc (f : State → State) : Prop :=
  ∀ c, Function.Commute f (setCrcAcc c)

/-- A choice ignores CRC_ACC when its test and both its branches do. -/
theorem IgnoresCrc.ite {f g : State → State} {p : State → Prop} [DecidablePred p]
    (unseen : ∀ c s, p (setCrcAcc c s) ↔ p s) (hf : IgnoresCrc f) (hg : IgnoresCrc g) :
    IgnoresCrc fun s => if p s then f s else g s := by
  intro c s
  by_cases h : p s
  · simp only [unseen, if_pos h, hf c s]
  · simp only [unseen, if_neg h, hg c s]

/-! ### The operations with a choice; the others commute by definition -/

theorem ignoresCrc_openCheck : IgnoresCrc openCheck :=
  .ite (fun _ _ => Iff.rfl) (fun _ _ => rfl) (fun _ _ => rfl)

theorem ignoresCrc_openTransport : IgnoresCrc openTransport :=
  .ite (fun _ _ => Iff.rfl) (fun _ _ => rfl) (fun _ _ => rfl)

theorem ignoresCrc_closeCheck : IgnoresCrc closeCheck :=
  .ite (fun _ _ => Iff.rfl) (fun _ _ => rfl) (fun _ _ => rfl)

theorem ignoresCrc_startActivation : IgnoresCrc startActivation :=
  .ite (fun _ _ => Iff.rfl) (fun _ _ => rfl) (fun _ _ => rfl)

theorem ignoresCrc_onPoll (r : Frame) : IgnoresCrc (onPoll r) :=
  .ite (fun _ _ => Iff.rfl) (fun _ _ => rfl) (.ite (fun _ _ => Iff.rfl) (fun _ _ => rfl) (fun _ _ => rfl))

theorem ignoresCrc_afterPollWait : IgnoresCrc afterPollWait :=
  .ite (fun _ _ => Iff.rfl) (fun _ _ => rfl) (fun _ _ => rfl)

theorem ignoresCrc_onWriteAck (r : Frame) : IgnoresCrc (onWriteAck r) := by
  intro c s
  unfold onWriteAck
  split <;> rfl

/-- What a status command keeps of a response is no CRC. -/
theorem ignoresCrc_onStatus {op : Byte} {keep : StatusValue → State → State} (run : keepOf op = some keep)
    (r : Frame) : IgnoresCrc (onStatus keep r) := by
  intro c s
  unfold onStatus
  split
  · rfl
  · rcases keepOf_some run with ⟨-, rfl⟩ | ⟨-, rfl⟩ | ⟨-, rfl⟩ <;> rfl

theorem IgnoresCrc.ifActivated {k : State → State} (h : IgnoresCrc k) : IgnoresCrc (ifActivated k) :=
  .ite (fun _ _ => Iff.rfl) (fun _ _ => rfl) (.ite (fun _ _ => Iff.rfl) (fun _ _ => rfl) h)

theorem IgnoresCrc.rxReadThen {k : Frame → State → State} (h : ∀ r, IgnoresCrc (k r)) (n : Nat) :
    IgnoresCrc (rxReadThen n k) :=
  .ite (fun _ _ => Iff.rfl) (fun _ _ => rfl)
    fun c s => h (s.link.readBytes n) c (rxReadReturns n (s.link.readBytes n) s)

/-! ### The meanings -/

/-- The step neither depends on CRC_ACC nor writes it, and stops or goes on whatever it holds. -/
def StepIgnoresCrc (f : State → Host.Outcome State Fault Refusal) : Prop :=
  ∀ c, Function.Semiconj f (setCrcAcc c) (mapNext (setCrcAcc c))

theorem stepIgnoresCrc_execOpen : StepIgnoresCrc execOpen := by
  intro c s
  simp only [execOpen, setCrcAcc_ctl, ignoresCrc_openCheck c s, ignoresCrc_openTransport c s]
  split <;> rfl

theorem stepIgnoresCrc_execClose : StepIgnoresCrc execClose := by
  intro c s
  simp only [execClose, setCrcAcc_ctl, ignoresCrc_closeCheck c s]
  split <;> rfl

theorem stepIgnoresCrc_execActivate : StepIgnoresCrc execActivate := by
  intro c s
  have read := IgnoresCrc.rxReadThen ignoresCrc_onPoll statusLen
  have wait : IgnoresCrc fun u => afterPollWait (waitTicks (pollWait u) u) := fun c u =>
    ignoresCrc_afterPollWait c (waitTicks (pollWait u) u)
  simp only [execActivate, setCrcAcc_ctl, ignoresCrc_startActivation c s, read c s, wait c s]
  split <;> rfl

theorem stepIgnoresCrc_execSetPosition (a0 a1 a2 : Word) : StepIgnoresCrc (execSetPosition a0 a1 a2) := by
  intro c s
  have build : IgnoresCrc fun u => goTo .xTx (buildMotion a0 a1 a2 u) := fun _ _ => rfl
  have read := IgnoresCrc.rxReadThen ignoresCrc_onWriteAck ackLen
  simp only [execSetPosition, setCrcAcc_ctl, build.ifActivated c s, read c s]
  split <;> rfl

theorem stepIgnoresCrc_statusExchange {op : Byte} {keep : StatusValue → State → State}
    (run : keepOf op = some keep) : StepIgnoresCrc (statusExchange keep) := by
  intro c s
  have start : IgnoresCrc (goTo .xTx) := fun _ _ => rfl
  have read := IgnoresCrc.rxReadThen (ignoresCrc_onStatus run) statusLen
  simp only [statusExchange, setCrcAcc_ctl, start.ifActivated c s, read c s]
  split <;> rfl

theorem stepIgnoresCrc_execFrameClear : StepIgnoresCrc execFrameClear := by
  intro c s
  simp only [execFrameClear, setCrcAcc_ctl]
  split <;> rfl

theorem stepIgnoresCrc_execFrameActivate : StepIgnoresCrc execFrameActivate := by
  intro c s
  simp only [execFrameActivate, setCrcAcc_ctl]
  split <;> rfl

theorem stepIgnoresCrc_execFrameMotion (p v f : Byte) (crc : Half) :
    StepIgnoresCrc (execFrameMotion p v f crc) := by
  intro c s
  by_cases op : s.latch.op = 0x04#8
  · simp only [execFrameMotion, setCrcAcc_ctl, setCrcAcc_latch, op, ↓reduceIte]
    split <;> rfl
  · simp only [execFrameMotion, setCrcAcc_ctl, setCrcAcc_latch, op, ↓reduceIte]
    split <;> rfl

theorem stepIgnoresCrc_execFrameStatusRead (addr crc : Half) :
    StepIgnoresCrc (execFrameStatusRead addr crc) := by
  intro c s
  simp only [execFrameStatusRead, setCrcAcc_ctl, setCrcAcc_latch]
  split
  · rfl
  · split <;> rfl
  · rfl

theorem stepIgnoresCrc_execFrameWriteAck (bytes : Frame) : StepIgnoresCrc (execFrameWriteAck bytes) := by
  intro c s
  have receive : IgnoresCrc fun u => onWriteAck bytes (rxReadReturns ackLen bytes u) := fun c u =>
    ignoresCrc_onWriteAck bytes c (rxReadReturns ackLen bytes u)
  by_cases op : s.latch.op = 0x04#8
  · simp only [execFrameWriteAck, setCrcAcc_ctl, setCrcAcc_latch, op, ↓reduceIte, receive c s]
    split <;> rfl
  · simp only [execFrameWriteAck, setCrcAcc_ctl, setCrcAcc_latch, op, ↓reduceIte]
    split <;> rfl

theorem stepIgnoresCrc_execFrameStatusResponse (bytes : Frame) :
    StepIgnoresCrc (execFrameStatusResponse bytes) := by
  intro c s
  simp only [execFrameStatusResponse, setCrcAcc_ctl, setCrcAcc_latch]
  split
  · exact congrArg _ (ignoresCrc_onPoll bytes c (rxReadReturns statusLen bytes s))
  · split
    · exact congrArg _ (ignoresCrc_onStatus ‹_› bytes c (rxReadReturns statusLen bytes s))
    · rfl
  · rfl

/-- Settles O9: each meaning but the two commands' ignores CRC_ACC. -/
theorem crcAccumulatorIsPrivate : Obligations.CrcAccumulatorIsPrivate := by
  intro i c s notInit notByte
  cases i with
  | openCmd => exact stepIgnoresCrc_execOpen c s
  | closeCmd => exact stepIgnoresCrc_execClose c s
  | activate => exact stepIgnoresCrc_execActivate c s
  | setPosition a0 a1 a2 => exact stepIgnoresCrc_execSetPosition a0 a1 a2 c s
  | getPosition => exact stepIgnoresCrc_statusExchange (op := 0x05#8) rfl c s
  | getCurrent => exact stepIgnoresCrc_statusExchange (op := 0x06#8) rfl c s
  | getStatus => exact stepIgnoresCrc_statusExchange (op := 0x07#8) rfl c s
  | crcInit => exact absurd rfl notInit
  | crcByte b => exact absurd rfl (notByte b)
  | frameClear => exact stepIgnoresCrc_execFrameClear c s
  | frameActivate => exact stepIgnoresCrc_execFrameActivate c s
  | frameMotion p v f crc => exact stepIgnoresCrc_execFrameMotion p v f crc c s
  | frameStatusRead addr crc => exact stepIgnoresCrc_execFrameStatusRead addr crc c s
  | frameWriteAck bytes => exact stepIgnoresCrc_execFrameWriteAck bytes c s
  | frameStatusResponse bytes => exact stepIgnoresCrc_execFrameStatusResponse bytes c s

end Sys2Proof.Machine

/-! A host that submits CRC_INIT and one CRC_BYTE per byte gets `crc16` of the bytes (41_crc_codec.md R111, R115,
R116): each command is presented, accepted, executed and completed, and leaves the rest of what it could touch. -/

namespace Sys2Proof.Machine

variable {s : State}

/-- The request is a command that changes CRC_ACC by `f` in its one step between acceptance and completion. -/
structure CrcRequest (r : Request) (f : Half → Half) (i : Instr) (op : Byte) : Prop where
  decodes : decodeRequest r = .ok i
  executes : ∀ u : State, u.ctl.phase = .exec → exec i u = .next (respondCrc (f u.regs.crcAcc) op u)
  completes : ∀ u : State, u.ctl.phase = .done → exec i u = .next (complete u)

theorem crcRequest_init :
    CrcRequest ⟨0x10#8, 0#24, 0#32, 0#32, 0#32⟩ (fun _ => 0xFFFF#16) .crcInit 0x10#8 where
  decodes := rfl
  executes _ p := exec_crcInit p
  completes _ p := by simp [exec, execCrcInit, p]

theorem crcRequest_byte (b : Byte) :
    CrcRequest ⟨0x11#8, 0#24, b.setWidth 32, 0#32, 0#32⟩ (crcStep · b) (.crcByte b) 0x11#8 where
  decodes := by
    rw [← decode_commandRequest]
    exact decode_encode_crcByte b
  executes _ p := exec_crcByte b p
  completes _ p := by simp [exec, execCrcByte, p]

/-! ### The four steps of a command -/

section Steps

variable {es : List Event} {h : HostId} {w : BitVec 128} {r : Request} {f : Half → Half} {i : Instr} {op : Byte}

theorem step_present (inputs : s.hosts.inputs = .present h w :: es) :
    step s = .next (presentRequest h w (s.withInputs es)) :=
  step_of_input inputs

/-- The arbiter has no choice when one request is held. -/
theorem acceptNext_of_single (held : s.hosts.held = [(h, w)]) :
    acceptNext s = accept h w { s with hosts := { s.hosts with
      held := []
      picks := s.hosts.picks.tail
      arbitrations := s.hosts.arbitrations + 1 } } := by
  simp [acceptNext, held, Nat.mod_one]

theorem step_accept (inputs : s.hosts.inputs = .core :: es) (idle : s.ctl.phase = .idle)
    (held : s.hosts.held = [(h, w)]) :
    step s = .next (accept h w { s with hosts := { s.hosts with
      held := []
      inputs := es
      picks := s.hosts.picks.tail
      arbitrations := s.hosts.arbitrations + 1 } }) :=
  calc step s = agentStep .core (s.withInputs es) := step_of_input inputs
    _ = .next (acceptNext (s.withInputs es)) := if_pos idle
    _ = _ := congrArg _ (acceptNext_of_single (s := s.withInputs es) held)

theorem step_running (inputs : s.hosts.inputs = .core :: es) (running : s.ctl.phase ≠ .idle)
    (command : decodeRequest s.latch = .ok i) : step s = exec i (s.withInputs es) := by
  rw [step_of_input inputs]
  simp [agentStep, coreStep, running, command]

theorem CrcRequest.step_exec (request : CrcRequest r f i op) (inputs : s.hosts.inputs = .core :: es)
    (p : s.ctl.phase = .exec) (latch : s.latch = r) :
    step s = .next (respondCrc (f s.regs.crcAcc) op (s.withInputs es)) := by
  rw [step_running inputs (by simp [p]) (latch ▸ request.decodes)]
  exact request.executes _ p

theorem CrcRequest.step_done (request : CrcRequest r f i op) (inputs : s.hosts.inputs = .core :: es)
    (p : s.ctl.phase = .done) (latch : s.latch = r) : step s = .next (complete (s.withInputs es)) := by
  rw [step_running inputs (by simp [p]) (latch ▸ request.decodes)]
  exact request.completes _ p

end Steps

/-! ### Runs of commands -/

/-- The core is idle, no request is held, and these inputs come. -/
structure State.Awaits (es : List Event) (s : State) : Prop where
  idle : s.ctl.phase = .idle
  held : s.hosts.held = []
  inputs : s.hosts.inputs = es

/-- What the CRC commands leave: the transport, the time, the session, the activation, the results and
FAULT_LOG (R115, R116). -/
def State.besideCrc (s : State) :
    Link × Nat × Bool × ActState × Byte × BitVec 12 × Byte × BitVec 24 × BitVec 8 :=
  (s.link, s.ctl.now, s.regs.sessionOpen, s.regs.actState, s.regs.lastPos, s.regs.lastCur, s.regs.lastSta,
    s.regs.motionEnc, s.regs.faultLog)

/-- After the four steps of a command the core awaits the next inputs. -/
theorem run_requestInputs {h : HostId} {r : Request} {f : Half → Half} {i : Instr} {op : Byte}
    {es : List Event} (request : CrcRequest r f i op) (awaits : s.Awaits (requestInputs h r ++ es)) (k : Nat) :
    ∃ t, Sys2Proof.core.run (k + 4) s = Sys2Proof.core.run k t ∧ t.Awaits es ∧
      t.regs.crcAcc = f s.regs.crcAcc ∧ t.besideCrc = s.besideCrc := by
  obtain ⟨idle, free, inputs⟩ := awaits
  have held : holdRequest h r.toWord s.hosts.held = [(h, r.toWord)] := by rw [free, holdRequest]
  have latch : Request.ofWord r.toWord = r := Request.ofWord_toWord r
  have run :=
    calc Sys2Proof.core.run (k + 4) s
      _ = Sys2Proof.core.run (k + 3) _ := run_succ _ (step_present inputs)
      _ = Sys2Proof.core.run (k + 2) _ := run_succ _ (step_accept rfl idle held)
      _ = Sys2Proof.core.run (k + 1) _ := run_succ _ (request.step_exec rfl rfl latch)
      _ = Sys2Proof.core.run k _ := run_succ _ (request.step_done rfl rfl latch)
  exact ⟨_, run, ⟨rfl, rfl, rfl⟩, rfl, rfl⟩

/-- One CRC_BYTE per byte folds the bytes into CRC_ACC. -/
theorem run_crcBytes {h : HostId} (bs : List Byte) (awaits : s.Awaits
      (bs.flatMap fun b => requestInputs h ⟨0x11#8, 0#24, b.setWidth 32, 0#32, 0#32⟩)) :
    ∃ t, Sys2Proof.core.run (4 * bs.length) s = .next t ∧ t.Awaits [] ∧
      t.regs.crcAcc = bs.foldl crcStep s.regs.crcAcc ∧ t.besideCrc = s.besideCrc := by
  induction bs generalizing s with
  | nil => exact ⟨s, rfl, awaits, rfl, rfl⟩
  | cons b bs ih =>
    obtain ⟨u, first, awaits', acc, kept⟩ := run_requestInputs (crcRequest_byte b) awaits (4 * bs.length)
    obtain ⟨t, rest, done, acc', kept'⟩ := ih awaits'
    refine ⟨t, first.trans rest, done, ?_, kept'.trans kept⟩
    rw [acc', acc]
    rfl

/-- Settles O7: CRC_INIT starts `crc16`'s fold, and the bytes go on with it. -/
theorem crcCommandsComputeCrc16 : Obligations.CrcCommandsComputeCrc16 := by
  intro h bs s idle held inputs
  obtain ⟨u, first, awaits, acc, kept⟩ :=
    run_requestInputs crcRequest_init ⟨idle, held, inputs⟩ (4 * bs.length)
  obtain ⟨t, rest, ⟨idle', held', inputs'⟩, acc', kept'⟩ := run_crcBytes bs awaits
  have unchanged : t.besideCrc = s.besideCrc := kept'.trans kept
  simp only [State.besideCrc, Prod.mk.injEq] at unchanged
  refine ⟨t, first.trans rest, ?_, idle', held', inputs', unchanged⟩
  rw [acc', acc]
  rfl

end Sys2Proof.Machine

/-! The operands of a motion (42_frame_builder.md R125–R127): `roundQ` case by case, its error of at most one
half, and the byte that rounding and clamping make of a word. -/

namespace Sys2Proof.Machine

variable {v : Word}

/-! ### Rounding -/

/-- A word that is not halfway between two integers has one nearest integer, whatever `ROUND_TIE` is. -/
theorem roundQ_of_not_tie (tie : RoundTie) (noTie : v.toInt % 256 ≠ 128) :
    roundQ tie v = (v.toInt + 128) / 256 := by
  simp only [roundQ]
  split
  · omega
  · rw [if_pos (by omega)]
    omega

theorem exists_tie (tied : v.toInt % 256 = 128) : ∃ q, v.toInt = 256 * q + 128 :=
  ⟨v.toInt / 256, by omega⟩

theorem roundQ_halfEven_of_tie {q : Int} (tied : v.toInt = 256 * q + 128) :
    roundQ .halfEven v = if q % 2 = 0 then q else q + 1 := by
  have floor : (256 * q + 128) / 256 = q := by omega
  simp [roundQ, tied, floor]

theorem roundQ_halfAway_of_tie {q : Int} (tied : v.toInt = 256 * q + 128) :
    roundQ .halfAway v = if 0 ≤ q then q + 1 else q := by
  have floor : (256 * q + 128) / 256 = q := by omega
  have sign : 0 ≤ 256 * q + 128 ↔ 0 ≤ q := by omega
  simp [roundQ, tied, floor, sign]

/-- Both neighbours of a tie are one half away from it. -/
theorem roundQ_of_tie (tie : RoundTie) {q : Int} (tied : v.toInt = 256 * q + 128) :
    roundQ tie v = q ∨ roundQ tie v = q + 1 := by
  cases tie with
  | halfEven =>
    rw [roundQ_halfEven_of_tie tied]
    exact ite_eq_or_eq _ q (q + 1)
  | halfAway =>
    rw [roundQ_halfAway_of_tie tied]
    exact (ite_eq_or_eq _ (q + 1) q).symm

/-- `roundQ` is at most one half away from the Q24.8 value; both sides are scaled by 256 (R125). -/
theorem roundQ_error (tie : RoundTie) (v : Word) :
    -128 ≤ 256 * roundQ tie v - v.toInt ∧ 256 * roundQ tie v - v.toInt ≤ 128 := by
  by_cases tied : v.toInt % 256 = 128
  · obtain ⟨q, tied⟩ := exists_tie tied
    rcases roundQ_of_tie tie tied with h | h <;> omega
  · rw [roundQ_of_not_tie tie tied]
    omega

theorem roundQ_range (tie : RoundTie) (v : Word) : -8388608 ≤ roundQ tie v ∧ roundQ tie v ≤ 8388608 := by
  have error := roundQ_error tie v
  have low : -2147483648 ≤ v.toInt := v.le_toInt
  have high : v.toInt < 2147483648 := v.toInt_lt
  omega

/-- Settles O10: the error bounds the result, and a tie is decided by the neighbours' parity or by the sign. -/
theorem roundQIsNearest : Obligations.RoundQIsNearest := by
  intro tie v
  obtain ⟨below, above⟩ := roundQ_error tie v
  obtain ⟨low, high⟩ := roundQ_range tie v
  refine ⟨below, above, low, high, fun tied => ?_, fun tied sign => ?_, fun tied sign => ?_⟩ <;>
    obtain ⟨q, tied⟩ := exists_tie tied
  · rw [roundQ_halfEven_of_tie tied]
    split <;> omega
  · rw [roundQ_halfAway_of_tie tied, if_pos (by omega)]
    omega
  · rw [roundQ_halfAway_of_tie tied, if_neg (by omega)]
    omega

/-! ### Clamping -/

theorem toNat_clamp8 (n : Int) : ((clamp8 n).toNat : Int) = max 0 (min 255 n) := by
  unfold clamp8
  split
  · rw [BitVec.toNat_ofNat]
    omega
  · split
    · rw [BitVec.toNat_ofNat]
      omega
    · rw [BitVec.toNat_ofInt]
      omega

/-- The encoded byte of R127. -/
theorem toNat_clampRound (tie : RoundTie) (v : Word) :
    ((clampRound tie v).toNat : Int) = max 0 (min 255 (roundQ tie v)) :=
  toNat_clamp8 (roundQ tie v)

theorem clampRound_eq_zero (tie : RoundTie) (negative : v.toInt < 0) : clampRound tie v = 0x00#8 := by
  apply BitVec.eq_of_toNat_eq
  have byte := toNat_clampRound tie v
  have error := roundQ_error tie v
  rw [BitVec.toNat_ofNat]
  omega

theorem clampRound_eq_max (tie : RoundTie) (large : 255 * 256 + 128 ≤ v.toInt) :
    clampRound tie v = 0xFF#8 := by
  apply BitVec.eq_of_toNat_eq
  have byte := toNat_clampRound tie v
  have error := roundQ_error tie v
  rw [BitVec.toNat_ofNat]
  omega

/-! ### Clamped ties -/

/-- A tie with an even `k` is where the modes differ: down to `k`, or away from zero to `k + 1`. -/
theorem clampRound_of_even_tie {k : Nat} (even : k % 2 = 0) (le : k ≤ 254) (tied : v.toInt = 256 * k + 128) :
    (clampRound .halfEven v).toNat = k ∧ (clampRound .halfAway v).toNat = k + 1 := by
  have toEven := toNat_clampRound .halfEven v
  have away := toNat_clampRound .halfAway v
  rw [roundQ_halfEven_of_tie tied, if_pos (by omega)] at toEven
  rw [roundQ_halfAway_of_tie tied, if_pos (by omega)] at away
  omega

/-- At a tie with an odd `k` the even neighbour is also the one away from zero. -/
theorem clampRound_of_odd_tie (tie : RoundTie) {k : Nat} (odd : k % 2 = 1) (le : k ≤ 253)
    (tied : v.toInt = 256 * k + 128) : (clampRound tie v).toNat = k + 1 := by
  have rounded : roundQ tie v = k + 1 := by
    cases tie with
    | halfEven => rw [roundQ_halfEven_of_tie tied, if_neg (by omega)]
    | halfAway => rw [roundQ_halfAway_of_tie tied, if_pos (by omega)]
  have byte := toNat_clampRound tie v
  omega

/-- The modes can differ only on an even tie, and there only between 0 and 255: outside, both clamp to the
same bound. -/
theorem even_tie_of_clampRound_ne (differ : clampRound .halfEven v ≠ clampRound .halfAway v) :
    ∃ k : Nat, k % 2 = 0 ∧ k ≤ 254 ∧ v.toInt = 256 * k + 128 := by
  have nonnegative : 0 ≤ v.toInt := by
    by_contra h
    exact differ (by rw [clampRound_eq_zero _ (by omega), clampRound_eq_zero _ (by omega)])
  have small : v.toInt < 255 * 256 + 128 := by
    by_contra h
    exact differ (by rw [clampRound_eq_max _ (by omega), clampRound_eq_max _ (by omega)])
  have tied : v.toInt % 256 = 128 := by
    by_contra h
    exact differ (by rw [clampRound, clampRound, roundQ_of_not_tie _ h, roundQ_of_not_tie _ h])
  obtain ⟨k, value⟩ : ∃ k : Nat, v.toInt = 256 * k + 128 := ⟨(v.toInt / 256).toNat, by omega⟩
  refine ⟨k, ?_, by omega, value⟩
  by_contra h
  refine differ (BitVec.eq_of_toNat_eq ?_)
  rw [clampRound_of_odd_tie _ (by omega) (by omega) value, clampRound_of_odd_tie _ (by omega) (by omega) value]

/-- Settles O11: the clamp cuts `roundQ` to a byte, and the modes part at the even ties only. -/
theorem clampRoundIsClampedRounding : Obligations.ClampRoundIsClampedRounding := by
  refine ⟨toNat_clampRound, fun tie _ => clampRound_eq_zero tie, fun tie _ => clampRound_eq_max tie,
    fun v => ⟨even_tie_of_clampRound_ne, ?_⟩, fun _ _ => clampRound_of_even_tie,
    fun tie _ _ => clampRound_of_odd_tie tie⟩
  rintro ⟨k, even, le, tied⟩ same
  obtain ⟨toEven, away⟩ := clampRound_of_even_tie even le tied
  rw [same] at toEven
  omega

end Sys2Proof.Machine

/-! The frames the block sends (42_frame_builder.md R129–R133): their bytes, their trailer, and the step that
sends them. -/

namespace Sys2Proof.Machine

/-! ### The builders' frames -/

/-- A motion frame byte by byte (30_encoding.md R85). -/
theorem buildMotionBytes_eq (p v f : Byte) : buildMotionBytes p v f =
    [0x09#8, 0x10#8, 0x03#8, 0xE8#8, 0x00#8, 0x03#8, 0x06#8, 0x09#8, 0x00#8, 0x00#8, p, v, f] ++
      crcTrailer (crc16
        [0x09#8, 0x10#8, 0x03#8, 0xE8#8, 0x00#8, 0x03#8, 0x06#8, 0x09#8, 0x00#8, 0x00#8, p, v, f]) := by
  rw [buildMotionBytes, buildWriteReq, appendCRC, writeHeader_eq]
  rfl

/-- A status-read frame byte by byte (30_encoding.md R82). -/
theorem buildStatusReadRequest_eq (addr : Half) : buildStatusReadRequest addr =
    [0x09#8, 0x03#8, hiByte addr, loByte addr, 0x00#8, 0x03#8] ++
      crcTrailer (crc16 [0x09#8, 0x03#8, hiByte addr, loByte addr, 0x00#8, 0x03#8]) := by
  rw [buildStatusReadRequest, appendCRC, hiByte_regCount, loByte_regCount]
  rfl

/-- A frame of the builders is a body with its CRC (R133). -/
theorem exists_body_of_builtFrame {addr : Half} {f : Frame} (built : builtFrame addr f = true) :
    ∃ body, f = appendCRC body := by
  simp only [builtFrame, Bool.or_eq_true, beq_iff_eq] at built
  rcases built with ((clear | activate) | statusRead) | motion
  · exact ⟨_, clear⟩
  · exact ⟨_, activate⟩
  · exact ⟨_, statusRead⟩
  · exact ⟨_, motion⟩

/-- Settles O13, from the frames byte by byte and the law of `appendCRC`. -/
theorem builtFramesHaveTheirLayout : Obligations.BuiltFramesHaveTheirLayout := by
  refine ⟨fun tie a0 a1 a2 => ?_, fun addr => ?_, fun f addr built => ?_⟩
  · rw [buildMotionRequest, buildMotionBytes_eq]
    exact ⟨_, rfl, rfl⟩
  · rw [buildStatusReadRequest_eq]
    exact ⟨_, rfl, rfl⟩
  · obtain ⟨body, rfl⟩ := exists_body_of_builtFrame built
    exact checkCRC_appendCRC body

/-! ### The step that sends a frame -/

section Sending

variable {s : State}

theorem exec_frameClear (point : s.ctl.phase = .aClr) : exec .frameClear s = .next (sendClear s) := by
  simp [exec, execFrameClear, point]

theorem exec_frameActivate (point : s.ctl.phase = .aAct) :
    exec .frameActivate s = .next (sendActivate s) := by
  simp [exec, execFrameActivate, point]

theorem exec_frameMotion {p v f : Byte} {crc : Half} (wf : (Instr.frameMotion p v f crc).wf = true)
    (point : s.ctl.phase = .xTx) (op : s.latch.op = 0x04#8) :
    exec (.frameMotion p v f crc) s = .next (goTo .xRx (txWrite (buildMotionBytes p v f) s)) := by
  simp [exec, execFrameMotion, point, op, motionFrame_of_wf wf]

theorem exec_frameStatusRead_poll {addr crc : Half} (wf : (Instr.frameStatusRead addr crc).wf = true)
    (point : s.ctl.phase = .aPtx) :
    exec (.frameStatusRead addr crc) s = .next (sendPoll (buildStatusReadRequest addr) s) := by
  simp [exec, execFrameStatusRead, point, statusReadFrame_of_wf wf]

theorem exec_frameStatusRead_exchange {addr crc : Half} (wf : (Instr.frameStatusRead addr crc).wf = true)
    (point : s.ctl.phase = .xTx) (status : s.latch.op = 0x05#8 ∨ s.latch.op = 0x06#8 ∨ s.latch.op = 0x07#8) :
    exec (.frameStatusRead addr crc) s = .next (goTo .xRx (txWrite (buildStatusReadRequest addr) s)) := by
  obtain ⟨keep, run⟩ := exists_keepOf status
  simp [exec, execFrameStatusRead, point, run, statusReadFrame_of_wf wf]

end Sending

/-- Settles O23: each frame is written at its point, and a well-formed one is its builder's output. -/
theorem sentFramesExecute : Obligations.SentFramesExecute := fun _ =>
  ⟨exec_frameClear, exec_frameActivate, fun _ _ _ _ => exec_frameMotion,
    fun _ _ => exec_frameStatusRead_poll, fun _ _ => exec_frameStatusRead_exchange⟩

end Sys2Proof.Machine

/-! The frame parser (43_frame_parser.md R145–R149): what `validate` answers, what the parsers decode of a frame
that validates, and the step that receives such a frame. -/

namespace Sys2Proof.Machine

/-! ### Validating -/

section Validating

variable {r : Frame} {n : Nat}

theorem validate_of_short (short : r.length < n) : validate r n = .error .commTimeout :=
  if_pos short

theorem validate_of_not_short (long : n ≤ r.length) :
    validate r n = if checkCRC r then .ok () else .error .checksumMismatch :=
  if_neg (Nat.not_lt.mpr long)

theorem validate_of_corrupt (long : n ≤ r.length) (corrupt : checkCRC r = false) :
    validate r n = .error .checksumMismatch := by
  simp [validate_of_not_short long, corrupt]

theorem validate_of_valid (long : n ≤ r.length) (valid : checkCRC r = true) : validate r n = .ok () := by
  simp [validate_of_not_short long, valid]

/-- A completed frame validates at any length up to its own. -/
theorem validate_appendCRC {body : Frame} (long : n ≤ body.length + 2) :
    validate (appendCRC body) n = .ok () :=
  validate_of_valid (by rwa [length_appendCRC]) (checkCRC_appendCRC body)

end Validating

/-- Settles O14: the length decides first, and for a long enough frame `checkCRC` decides. -/
theorem validateChecksLengthThenCrc : Obligations.ValidateChecksLengthThenCrc := fun _ _ =>
  ⟨validate_of_short, validate_of_corrupt, validate_of_valid⟩

/-! ### Decoding a frame that validates -/

section Decoding

variable {r : Frame}

theorem parseStatus_of_validate (valid : validate r statusLen = .ok ()) : parseStatus r =
    .ok ⟨r.getD posOff 0#8, (r.getD curOff 0#8).setWidth 12 * curScale, r.getD staOff 0#8⟩ := by
  simp [parseStatus, valid]

theorem parseActivationAck_of_validate (valid : validate r statusLen = .ok ()) :
    parseActivationAck r = .ok ((r.getD staOff 0#8).extractLsb' 4 4 == ackNibble) := by
  simp [parseActivationAck, valid]

/-- The gripper is ready exactly when the high nibble of its status byte is 3 (R147). -/
theorem highNibble_beq_ackNibble (b : Byte) :
    (b.extractLsb' 4 4 == ackNibble) = decide (b.toNat / 16 = 3) := by
  have nibble : (b.extractLsb' 4 4).toNat = b.toNat / 16 := by
    have := b.isLt
    rw [BitVec.extractLsb'_toNat, Nat.shiftRight_eq_div_pow, Nat.mod_eq_of_lt (by omega)]
  rw [beq_eq_decide, decide_eq_decide, ← BitVec.toNat_inj, nibble]
  rfl

end Decoding

/-- Settles O15: a completed frame of the right length validates, and the parsers then read only their
bytes. -/
theorem parsersIgnoreTheHeader : Obligations.ParsersIgnoreTheHeader := by
  have validates (b0 b1 b2 sta b4 b5 b6 pos cur : Byte) :
      validate (appendCRC [b0, b1, b2, sta, b4, b5, b6, pos, cur]) statusLen = .ok () :=
    validate_appendCRC (Nat.le_refl statusLen)
  refine ⟨fun b0 b1 b2 b3 b4 b5 => ?_, fun b0 b1 b2 sta b4 b5 b6 pos cur => ?_,
    fun b0 b1 b2 sta b4 b5 b6 pos cur => ?_⟩
  · exact validate_appendCRC (Nat.le_refl ackLen)
  · exact ⟨_, parseStatus_of_validate (validates ..), toNat_current cur⟩
  · rw [parseActivationAck_of_validate (validates ..), highNibble_beq_ackNibble]
    rfl

/-! ### The step that receives a frame -/

/-- The state after an `RxRead(n)` that returned all `n` bytes (20_memory.md R57). -/
def fullRead (n : Nat) (bytes : Frame) (s : State) : State :=
  { s with
    ctl := { s.ctl with rxBuf := bytes, rxLen := BitVec.ofNat 4 n, now := s.ctl.now + s.link.draw.dur }
    link := s.link.transact (s.link.pool.drop n) (.read n bytes s.ctl.now) }

section Receiving

variable {s : State} {bytes : Frame}

theorem rxReadReturns_eq_fullRead {n : Nat} (full : bytes.length = n) :
    rxReadReturns n bytes s = fullRead n bytes s := by
  rw [rxReadReturns, full, fullRead]

theorem exec_frameWriteAck (full : bytes.length = ackLen) (valid : checkCRC bytes = true)
    (point : s.ctl.phase = .xRx) (op : s.latch.op = 0x04#8) : exec (.frameWriteAck bytes) s =
      .next (respond (Resp.plain .none 0x04#8) (fullRead ackLen bytes s)) := by
  have accepted : parseWriteAck bytes = .ok () := validate_of_valid full.ge valid
  simp [exec, execFrameWriteAck, onWriteAck, point, op, accepted, rxReadReturns_eq_fullRead full]

theorem exec_frameStatusResponse_exchange {keep : StatusValue → State → State} {v : StatusValue}
    (full : bytes.length = statusLen) (parsed : parseStatus bytes = .ok v) (point : s.ctl.phase = .xRx)
    (run : keepOf s.latch.op = some keep) :
    exec (.frameStatusResponse bytes) s = .next (keep v (fullRead statusLen bytes s)) := by
  simp [exec, execFrameStatusResponse, onStatus, point, run, parsed, rxReadReturns_eq_fullRead full]

theorem exec_frameStatusResponse_poll (full : bytes.length = statusLen)
    (ready : parseActivationAck bytes = .ok true) (point : s.ctl.phase = .aPrx) :
    exec (.frameStatusResponse bytes) s =
      .next (respond (Resp.plain .none 0x03#8) (setAct .activated (fullRead statusLen bytes s))) := by
  simp [exec, execFrameStatusResponse, onPoll, point, ready, rxReadReturns_eq_fullRead full]

end Receiving

/-- Settles O24: the command that takes the frame goes on with it after a full read. -/
theorem receivedFramesExecute : Obligations.ReceivedFramesExecute := fun _ _ =>
  ⟨exec_frameWriteAck,
    fun _ full parsed point op =>
      exec_frameStatusResponse_exchange (keep := keepPosition) full parsed point (congrArg keepOf op),
    fun _ full parsed point op =>
      exec_frameStatusResponse_exchange (keep := keepCurrent) full parsed point (congrArg keepOf op),
    fun _ full parsed point op =>
      exec_frameStatusResponse_exchange (keep := keepStatus) full parsed point (congrArg keepOf op),
    exec_frameStatusResponse_poll⟩

end Sys2Proof.Machine

/-! ACTIVATE step by step (44_activation_sequencer.md R166–R177, R183): the next state at each control point, the
transitions of ACT_STATE (R165, R180), and when a failed poll ends the handshake (R175–R178). -/

namespace Sys2Proof.Machine

variable {s : State} {r : Frame}

/-! ### What follows a poll -/

theorem onPoll_of_ready (ready : parseActivationAck r = .ok true) :
    onPoll r s = respond (Resp.plain .none 0x03#8) (setAct .activated s) :=
  if_pos ready

theorem onPoll_of_late (failed : parseActivationAck r ≠ .ok true) (late : s.ctl.deadline ≤ s.ctl.now) :
    onPoll r s = timeOut s := by
  rw [onPoll, if_neg failed, if_pos late]

theorem onPoll_of_early (failed : parseActivationAck r ≠ .ok true) (early : s.ctl.now < s.ctl.deadline) :
    onPoll r s = goTo .aPwait s := by
  rw [onPoll, if_neg failed, if_neg (Nat.not_le.mpr early)]

theorem afterPollWait_of_late (late : s.ctl.deadline ≤ s.ctl.now) : afterPollWait s = timeOut s :=
  if_pos late

theorem afterPollWait_of_early (early : s.ctl.now < s.ctl.deadline) : afterPollWait s = goTo .aPtx s :=
  if_neg (Nat.not_le.mpr early)

/-! ### The next state at each control point -/

theorem execActivate_exec (p : s.ctl.phase = .exec) (opened : s.regs.sessionOpen = true) :
    execActivate s = .next (goTo .aClr (setAct .activating (setAct .reset s))) := by
  simp [execActivate, startActivation, p, opened]

theorem execActivate_aClr (p : s.ctl.phase = .aClr) : execActivate s = .next (sendClear s) := by
  simp [execActivate, p]

theorem execActivate_aSet1 (p : s.ctl.phase = .aSet1) :
    execActivate s = .next (goTo .aAct (waitTicks s.params.tSettle s)) := by
  simp [execActivate, p]

theorem execActivate_aAct (p : s.ctl.phase = .aAct) : execActivate s = .next (sendActivate s) := by
  simp [execActivate, p]

theorem execActivate_aSet2 (p : s.ctl.phase = .aSet2) :
    execActivate s = .next (goTo .aDisc (waitTicks s.params.tSettle s)) := by
  simp [execActivate, p]

theorem execActivate_aDisc (p : s.ctl.phase = .aDisc) :
    execActivate s = .next (goTo .aPtx (rxDiscard s)) := by
  simp [execActivate, p]

theorem execActivate_aPtx (p : s.ctl.phase = .aPtx) :
    execActivate s = .next (sendPoll (buildStatusReadRequest s.params.statusAddr) s) := by
  simp [execActivate, p]

theorem execActivate_aPrx (p : s.ctl.phase = .aPrx) (returns : s.link.draw.hang = false)
    (read : s.link.readBytes 11 = r) : execActivate s = .next (onPoll r (rxReadReturns 11 r s)) := by
  simp only [execActivate, p]
  exact congrArg _ (rxReadThen_of_returns onPoll returns read)

theorem execActivate_aPwait (p : s.ctl.phase = .aPwait) :
    execActivate s = .next (afterPollWait (waitTicks (pollWait s) s)) := by
  simp [execActivate, p]

/-! ### The outcomes of a poll and of its wait -/

theorem execActivate_poll_ready (p : s.ctl.phase = .aPrx) (returns : s.link.draw.hang = false)
    (read : s.link.readBytes 11 = r) (ready : parseActivationAck r = .ok true) : execActivate s =
      .next (respond (Resp.plain .none 0x03#8) (setAct .activated (rxReadReturns 11 r s))) := by
  rw [execActivate_aPrx p returns read, onPoll_of_ready ready]

theorem execActivate_poll_early (p : s.ctl.phase = .aPrx) (returns : s.link.draw.hang = false)
    (read : s.link.readBytes 11 = r) (failed : parseActivationAck r ≠ .ok true)
    (early : s.ctl.now + s.link.draw.dur < s.ctl.deadline) :
    execActivate s = .next (goTo .aPwait (rxReadReturns 11 r s)) := by
  rw [execActivate_aPrx p returns read, onPoll_of_early failed early]

theorem execActivate_poll_late (p : s.ctl.phase = .aPrx) (returns : s.link.draw.hang = false)
    (read : s.link.readBytes 11 = r) (failed : parseActivationAck r ≠ .ok true)
    (late : s.ctl.deadline ≤ s.ctl.now + s.link.draw.dur) :
    execActivate s = .next (timeOut (rxReadReturns 11 r s)) := by
  rw [execActivate_aPrx p returns read, onPoll_of_late failed late]

theorem execActivate_wait_early (p : s.ctl.phase = .aPwait)
    (early : s.ctl.now + pollWait s < s.ctl.deadline) :
    execActivate s = .next (goTo .aPtx (waitTicks (pollWait s) s)) := by
  rw [execActivate_aPwait p, afterPollWait_of_early early]

theorem execActivate_wait_late (p : s.ctl.phase = .aPwait)
    (late : s.ctl.deadline ≤ s.ctl.now + pollWait s) :
    execActivate s = .next (timeOut (waitTicks (pollWait s) s)) := by
  rw [execActivate_aPwait p, afterPollWait_of_late late]

/-- Settles O22: the next state at each control point, with its operations written out. -/
theorem activateExecutes : Obligations.ActivateExecutes := fun _ =>
  ⟨execActivate_exec, execActivate_aClr, execActivate_aSet1, execActivate_aAct, execActivate_aSet2,
    execActivate_aDisc, execActivate_aPtx, fun _ => execActivate_poll_ready,
    fun _ => execActivate_poll_early, execActivate_wait_early⟩

/-- Settles O33: a failed poll and its wait, before the deadline and at it. -/
theorem failedPollsTimeOutAtTheDeadline : Obligations.FailedPollsTimeOutAtTheDeadline := fun _ =>
  ⟨fun _ => execActivate_poll_late, fun _ => execActivate_poll_early, execActivate_wait_early,
    execActivate_wait_late⟩

/-! ### The transitions of ACT_STATE -/

/-- What one step may make of ACT_STATE (R165): it stays, a session or a handshake starts, or a handshake ends
as R174, R175 and R177 say. -/
inductive ActMove (s t : State) : Prop where
  | kept (act : t.regs.actState = s.regs.actState)
  | reset (act : t.regs.actState = .reset)
  | activating (act : t.regs.actState = .activating)
  | activated (act : t.regs.actState = .activated) (point : s.ctl.phase = .aPrx)
      (run : s.runs 0x03#8 = true) (ready : parseActivationAck t.ctl.rxBuf = .ok true)
  | timedOut (act : t.regs.actState = .timedOut) (point : s.ctl.phase = .aPrx ∨ s.ctl.phase = .aPwait)
      (run : s.runs 0x03#8 = true) (late : t.ctl.deadline ≤ t.ctl.now)
      (fault : t.ctl.resp.fault = .activationTimedOut)

/-- A move of the core does not depend on the inputs to come. -/
theorem ActMove.ofWithInputs {t : State} {es : List Event} (m : ActMove (s.withInputs es) t) :
    ActMove s t := by
  cases m with
  | kept act => exact .kept act
  | reset act => exact .reset act
  | activating act => exact .activating act
  | activated act point run ready => exact .activated act point run ready
  | timedOut act point run late fault => exact .timedOut act point run late fault

theorem actMove_readPoll (p : s.ctl.phase = .aPrx) (run : s.runs 0x03#8 = true) :
    ActMove s (rxReadThen statusLen onPoll s) := by
  rcases rxReadThen_cases statusLen onPoll s with ⟨-, e⟩ | ⟨-, e⟩ <;> rw [e]
  · exact .kept rfl
  · rcases onPoll_cases (s.link.readBytes statusLen)
      (rxReadReturns statusLen (s.link.readBytes statusLen) s) with
      ⟨ready, e⟩ | ⟨-, late, e⟩ | ⟨-, -, e⟩ <;> rw [e]
    · exact .activated rfl p run ready
    · exact .timedOut rfl (.inl p) run late rfl
    · exact .kept rfl

theorem actMove_pollWait (p : s.ctl.phase = .aPwait) (run : s.runs 0x03#8 = true) :
    ActMove s (afterPollWait (waitTicks (pollWait s) s)) := by
  rcases afterPollWait_cases (waitTicks (pollWait s) s) with ⟨late, e⟩ | ⟨-, e⟩ <;> rw [e]
  · exact .timedOut rfl (.inr p) run late rfl
  · exact .kept rfl

/-- Away from the control points of ACTIVATE only a session changes ACT_STATE, and to Reset. -/
theorem ActMove.ofWrites {t : State} (w : Writes s t) (exec : s.ctl.phase ≠ .exec)
    (aPrx : s.ctl.phase ≠ .aPrx) (aPwait : s.ctl.phase ≠ .aPwait) : ActMove s t := by
  have regs := w.regs
  generalize written : t.regs = x at regs
  cases regs with
  | session => exact .reset (by rw [written])
  | activation _ point => simp [exec, aPrx, aPwait] at point
  | _ => exact .kept (by rw [written])

theorem actMove_openCheck : ActMove s (openCheck s) := by
  unfold openCheck
  split <;> exact .kept rfl

theorem actMove_closeCheck : ActMove s (closeCheck s) := by
  unfold closeCheck
  split <;> exact .kept rfl

theorem CoreMove.actMove {t : State} (m : CoreMove s t) : ActMove s t := by
  cases m with
  | readPoll p run => exact actMove_readPoll p run
  | pollWait p run => exact actMove_pollWait p run
  | startActivation => exact .activating rfl
  | closeTransport => exact .reset rfl
  | openCheck => exact actMove_openCheck
  | closeCheck => exact actMove_closeCheck
  | accept p => exact .ofWrites (writes_acceptNext p) (by simp [p]) (by simp [p]) (by simp [p])
  | openTransport p run =>
    exact .ofWrites (writes_openTransport p run) (by simp [p]) (by simp [p]) (by simp [p])
  | readAck p => exact .ofWrites writes_readAck (by simp [p]) (by simp [p]) (by simp [p])
  | readStatus p _ run rsv =>
    exact .ofWrites (writes_readStatus p run rsv) (by simp [p]) (by simp [p]) (by simp [p])
  | _ => exact .kept rfl

/-- A reset input puts ACT_STATE to Reset, other agents leave it, and the rest are moves of the core. -/
theorem step_actMove {t : State} (next : step s = .next t) : ActMove s t := by
  rcases step_next next with ⟨-, core⟩ | ⟨es, -, core⟩ | ⟨_, _, _, -, rfl⟩ | ⟨_, _, _, _, -, rfl⟩ |
    ⟨_, _, -, rfl⟩ | ⟨_, _, -, rfl⟩
  · exact (coreStep_move core).actMove
  · exact (coreStep_move core).actMove.ofWithInputs
  · exact .kept rfl
  · exact .kept rfl
  · exact .kept rfl
  · exact .reset rfl

/-- Settles O49, from the transitions of ACT_STATE. -/
theorem activationEndsOnlyAsTheSpecSays : Obligations.ActivationEndsOnlyAsTheSpecSays := by
  intro s t next changed
  cases step_actMove next with
  | kept act => exact absurd act changed
  | reset act | activating act => simp [act]
  | activated act point run ready => exact ⟨fun _ => ⟨point, run, ready⟩, by simp [act]⟩
  | timedOut act point run late fault => exact ⟨by simp [act], fun _ => ⟨point, run, late, fault⟩⟩

end Sys2Proof.Machine

/-! The poll schedule law (44_activation_sequencer.md R181): an ACTIVATE whose transactions all take 0 ticks, from
A_CLR through its polls to its end. -/

namespace Sys2Proof.Machine

variable {s t u : State}

/-! ### Runs that leave the parameters and the registers alone -/

/-- After `steps` steps and `ticks` ticks the machine is at `t`, with the parameters and the registers of `s`, and
the transport has seen `seen`. -/
structure Passes (s : State) (steps ticks : Nat) (seen : List TransportEvent) (t : State) : Prop where
  run : ∀ k, Sys2Proof.core.run (k + steps) s = Sys2Proof.core.run k t
  params : t.params = s.params
  regs : t.regs = s.regs
  now : t.ctl.now = s.ctl.now + ticks
  trace : t.link.trace = s.link.trace ++ seen

theorem Passes.refl (s : State) : Passes s 0 0 [] s :=
  ⟨fun _ => rfl, rfl, rfl, rfl, (List.append_nil _).symm⟩

theorem Passes.trans {m n d e : Nat} {xs ys : List TransportEvent} (first : Passes s m d xs t)
    (rest : Passes t n e ys u) : Passes s (m + n) (d + e) (xs ++ ys) u where
  run k := by rw [Nat.add_comm m n, ← Nat.add_assoc, first.run, rest.run]
  params := rest.params.trans first.params
  regs := rest.regs.trans first.regs
  now := by rw [rest.now, first.now, Nat.add_assoc]
  trace := by rw [rest.trace, first.trace, List.append_assoc]

/-- ACTIVATE gets to DONE in `steps` steps and `ticks` ticks with this ACT_STATE and this fault code, changes no
other register, and the transport has seen `seen`. -/
def EndsIn (s : State) (steps ticks : Nat) (seen : List TransportEvent) (act : ActState) (c : FaultCode) :
    Prop :=
  ∃ t, Sys2Proof.core.run steps s = .next t ∧ t.regs = { s.regs with actState := act } ∧
    t.ctl.phase = .done ∧ t.ctl.resp = Resp.plain c 0x03#8 ∧ t.ctl.now = s.ctl.now + ticks ∧
    t.link.trace = s.link.trace ++ seen

theorem Passes.endsIn {m n d e : Nat} {xs ys : List TransportEvent} {act : ActState} {c : FaultCode}
    (first : Passes s m d xs t) (rest : EndsIn t n e ys act c) :
    EndsIn s (m + n) (d + e) (xs ++ ys) act c := by
  obtain ⟨u, run, regs, phase, resp, now, trace⟩ := rest
  refine ⟨u, ?_, ?_, phase, resp, ?_, ?_⟩
  · rw [Nat.add_comm, first.run, run]
  · rw [regs, first.regs]
  · rw [now, first.now, Nat.add_assoc]
  · rw [trace, first.trace, List.append_assoc]

/-! ### Transactions of 0 ticks -/

section Transactions

variable {ds : List Draw} {r : Frame}

theorem txWrite_of_instantDraw (f : Frame) (oracle : s.link.oracle = instantDraw :: ds) :
    txWrite f s = { s with
      ctl := { s.ctl with txBuf := f }
      link := ⟨s.link.pending, ds, s.link.draws + 1, s.link.trace ++ [.wrote f s.ctl.now]⟩ } := by
  simp [txWrite, Link.draw, Link.transact, oracle, instantDraw]

/-- The read of a poll returns just the bytes that arrive in it. -/
theorem readBytes_of_exactDraw (len : r.length ≤ 11) (drained : s.link.pending = [])
    (oracle : s.link.oracle = ⟨0, true, r, r.length, false⟩ :: ds) : s.link.readBytes 11 = r := by
  simp [Link.readBytes, Link.pool, Link.draw, drained, oracle, len]

theorem rxReadReturns_of_exactDraw (drained : s.link.pending = [])
    (oracle : s.link.oracle = ⟨0, true, r, r.length, false⟩ :: ds) :
    rxReadReturns 11 r s = { s with
      ctl := { s.ctl with rxBuf := r, rxLen := BitVec.ofNat 4 r.length }
      link := ⟨[], ds, s.link.draws + 1, s.link.trace ++ [.read 11 r s.ctl.now]⟩ } := by
  simp [rxReadReturns, Link.pool, Link.draw, Link.transact, drained, oracle]

end Transactions

/-! ### The steps of the handshake -/

/-- ACTIVATE stands at `p` with this deadline, no other agent acts, these bytes are pending, and these are the
transport's choices to come. -/
structure HandshakeAt (p : Phase) (deadline : Nat) (pending : List Byte) (draws : List Draw) (s : State) :
    Prop where
  point : s.ctl.phase = p
  op : s.latch.op = 0x03#8
  rsv : s.latch.rsv = 0#24
  alone : s.hosts.inputs = []
  deadline : s.ctl.deadline = deadline
  pending : s.link.pending = pending
  oracle : s.link.oracle = draws

section Handshake

variable {p q : Phase} {D : Nat} {bytes : List Byte} {ds : List Draw} {r : Frame}

theorem HandshakeAt.step_eq (h : HandshakeAt p D bytes ds s) (running : p ≠ .idle) :
    step s = execActivate s :=
  step_of_activate h.alone (h.point ▸ running) h.rsv h.op

/-- One step of the handshake, by its meaning. -/
theorem HandshakeAt.passes {d : Nat} {seen : List TransportEvent} (h : HandshakeAt p D bytes ds s)
    (running : p ≠ .idle) (next : execActivate s = .next t) (params : t.params = s.params)
    (regs : t.regs = s.regs) (now : t.ctl.now = s.ctl.now + d) (trace : t.link.trace = s.link.trace ++ seen) :
    Passes s 1 d seen t :=
  ⟨fun k => run_succ k ((h.step_eq running).trans next), params, regs, now, trace⟩

/-- The last step of the handshake, by its meaning. -/
theorem HandshakeAt.endsIn {d : Nat} {seen : List TransportEvent} {act : ActState} {c : FaultCode}
    (h : HandshakeAt p D bytes ds s) (running : p ≠ .idle)
    (next : execActivate s = .next (respond (Resp.plain c 0x03#8) (setAct act t))) (regs : t.regs = s.regs)
    (now : t.ctl.now = s.ctl.now + d) (trace : t.link.trace = s.link.trace ++ seen) :
    EndsIn s 1 d seen act c :=
  ⟨_, (run_succ 0 ((h.step_eq running).trans next)).trans (run_zero _),
    congrArg (fun x : Regs => { x with actState := act }) regs, rfl, rfl, now, trace⟩

/-- A write of the handshake (R169, R172). -/
theorem HandshakeAt.write {f : Frame} (h : HandshakeAt p D bytes (instantDraw :: ds) s) (running : p ≠ .idle)
    (next : execActivate s = .next (goTo q (txWrite f s))) :
    ∃ t, Passes s 1 0 [.wrote f s.ctl.now] t ∧ HandshakeAt q D bytes ds t := by
  rw [txWrite_of_instantDraw f h.oracle] at next
  exact ⟨_, h.passes running next rfl rfl rfl rfl, rfl, h.op, h.rsv, h.alone, h.deadline, h.pending, rfl⟩

/-- A wait of the handshake (R168, R170, R176). -/
theorem HandshakeAt.wait {d : Nat} (h : HandshakeAt p D bytes ds s) (running : p ≠ .idle)
    (next : execActivate s = .next (goTo q (waitTicks d s))) :
    ∃ t, Passes s 1 d [] t ∧ HandshakeAt q D bytes ds t :=
  ⟨_, h.passes running next rfl rfl rfl (List.append_nil _).symm, rfl, h.op, h.rsv, h.alone, h.deadline,
    h.pending, h.oracle⟩

theorem HandshakeAt.discard (h : HandshakeAt .aDisc D bytes ds s) :
    ∃ t, Passes s 1 0 [.discarded s.ctl.now] t ∧ HandshakeAt .aPtx D [] ds t :=
  ⟨_, h.passes nofun (execActivate_aDisc h.point) rfl rfl rfl rfl, rfl, h.op, h.rsv, h.alone, h.deadline, rfl,
    h.oracle⟩

/-- A_CLR takes the deadline before its write (R166, R167). -/
theorem HandshakeAt.clear (h : HandshakeAt .aClr D bytes (instantDraw :: ds) s) :
    ∃ t, Passes s 1 0 [.wrote buildClearRequest s.ctl.now] t ∧
      HandshakeAt .aSet1 (s.ctl.now + s.params.tActTimeout) bytes ds t := by
  have next := execActivate_aClr h.point
  rw [sendClear, txWrite_of_instantDraw (ds := ds)
    (s := { s with ctl := { s.ctl with deadline := s.ctl.now + s.params.tActTimeout } }) _ h.oracle] at next
  exact ⟨_, h.passes nofun next rfl rfl rfl rfl, rfl, h.op, h.rsv, h.alone, rfl, h.pending, rfl⟩

/-! ### From A_CLR to the first poll -/

/-- What the transport sees before the first poll of a handshake that starts at tick `t` (R181). -/
def settleTrace (settle t : Nat) : List TransportEvent :=
  [.wrote buildClearRequest t, .wrote buildActivateRequest (t + settle), .discarded (t + 2 * settle)]

theorem HandshakeAt.settle (h : HandshakeAt .aClr D bytes (instantDraw :: instantDraw :: ds) s) :
    ∃ t, Passes s 5 (2 * s.params.tSettle) (settleTrace s.params.tSettle s.ctl.now) t ∧
      HandshakeAt .aPtx (s.ctl.now + s.params.tActTimeout) [] ds t := by
  obtain ⟨s1, cleared, h1⟩ := h.clear
  obtain ⟨s2, settled, h2⟩ := h1.wait nofun (execActivate_aSet1 h1.point)
  obtain ⟨s3, activated, h3⟩ := h2.write nofun (execActivate_aAct h2.point)
  obtain ⟨s4, settled', h4⟩ := h3.wait nofun (execActivate_aSet2 h3.point)
  obtain ⟨t, discarded, h5⟩ := h4.discard
  have toActivate : Passes s 2 s.params.tSettle [.wrote buildClearRequest s.ctl.now] s2 := by
    simpa [cleared.params] using cleared.trans settled
  have toDiscard : Passes s 4 (2 * s.params.tSettle) [.wrote buildClearRequest s.ctl.now,
      .wrote buildActivateRequest (s.ctl.now + s.params.tSettle)] s4 := by
    simpa [toActivate.now, toActivate.params, activated.params, two_mul] using
      (toActivate.trans activated).trans settled'
  exact ⟨t, by simpa [settleTrace, toDiscard.now] using toDiscard.trans discarded, h5⟩

/-! ### One poll -/

/-- The bytes a poll's read returns, and what it leaves. -/
theorem HandshakeAt.read (h : HandshakeAt .aPrx D [] (⟨0, true, r, r.length, false⟩ :: ds) s)
    (len : r.length ≤ 11) : ∃ u, execActivate s = .next (onPoll r u) ∧ u.params = s.params ∧
      u.regs = s.regs ∧ u.ctl.now = s.ctl.now ∧ u.link.trace = s.link.trace ++ [.read 11 r s.ctl.now] ∧
      HandshakeAt .aPrx D [] ds u := by
  have returns : s.link.draw.hang = false := by simp [Link.draw, h.oracle]
  have next := execActivate_aPrx h.point returns (readBytes_of_exactDraw len h.pending h.oracle)
  rw [rxReadReturns_of_exactDraw h.pending h.oracle] at next
  exact ⟨_, next, rfl, rfl, rfl, rfl, h.point, h.op, h.rsv, h.alone, h.deadline, rfl, rfl⟩

theorem timeOut_of_op (op : s.latch.op = 0x03#8) :
    timeOut s = respond (Resp.plain .activationTimedOut 0x03#8) (setAct .timedOut s) := by
  simp [timeOut, raiseFault, op]

theorem HandshakeAt.write_poll (h : HandshakeAt .aPtx D [] (pollDraws r ++ ds) s) :
    ∃ t, Passes s 1 0 [.wrote (buildStatusReadRequest s.params.statusAddr) s.ctl.now] t ∧
      HandshakeAt .aPrx D [] (⟨0, true, r, r.length, false⟩ :: ds) t :=
  h.write nofun (execActivate_aPtx h.point)

/-- A ready poll ends the handshake, whatever the deadline (R174). -/
theorem HandshakeAt.readyPoll (h : HandshakeAt .aPtx D [] (pollDraws r ++ ds) s) (len : r.length ≤ 11)
    (ready : parseActivationAck r = .ok true) :
    EndsIn s 2 0 (pollTrace s.params.statusAddr s.params.tPoll s.ctl.now [r]) .activated .none := by
  obtain ⟨t, wrote, h'⟩ := h.write_poll
  obtain ⟨u, next, -, regs, now, trace, -⟩ := h'.read len
  rw [onPoll_of_ready ready] at next
  simpa [pollTrace, wrote.now] using wrote.endsIn (h'.endsIn (d := 0) nofun next regs now trace)

/-- A failed poll ends the handshake with the deadline reached (R175). -/
theorem HandshakeAt.latePoll (h : HandshakeAt .aPtx D [] (pollDraws r ++ ds) s) (len : r.length ≤ 11)
    (failed : parseActivationAck r ≠ .ok true) (late : D ≤ s.ctl.now) :
    EndsIn s 2 0 (pollTrace s.params.statusAddr s.params.tPoll s.ctl.now [r]) .timedOut .activationTimedOut := by
  obtain ⟨t, wrote, h'⟩ := h.write_poll
  obtain ⟨u, next, -, regs, now, trace, hu⟩ := h'.read len
  have reached : u.ctl.deadline ≤ u.ctl.now := by rwa [hu.deadline, now, wrote.now]
  rw [onPoll_of_late failed reached, timeOut_of_op hu.op] at next
  simpa [pollTrace, wrote.now] using wrote.endsIn (h'.endsIn (d := 0) nofun next regs now trace)

/-- After a failed poll before the deadline the loop waits (R176). -/
theorem HandshakeAt.earlyPoll (h : HandshakeAt .aPtx D [] (pollDraws r ++ ds) s) (len : r.length ≤ 11)
    (failed : parseActivationAck r ≠ .ok true) (early : s.ctl.now < D) :
    ∃ t, Passes s 2 0 (pollTrace s.params.statusAddr s.params.tPoll s.ctl.now [r]) t ∧
      HandshakeAt .aPwait D [] ds t := by
  obtain ⟨t, wrote, h'⟩ := h.write_poll
  obtain ⟨u, next, params, regs, now, trace, hu⟩ := h'.read len
  have ahead : u.ctl.now < u.ctl.deadline := by rwa [hu.deadline, now, wrote.now]
  rw [onPoll_of_early failed ahead] at next
  refine ⟨goTo .aPwait u, ?_, rfl, hu.op, hu.rsv, hu.alone, hu.deadline, hu.pending, hu.oracle⟩
  simpa [pollTrace, wrote.now] using wrote.trans (h'.passes (d := 0) nofun next params regs now trace)

/-- A whole poll interval before the deadline leads to the next poll (R176, R177). -/
theorem HandshakeAt.fullWait (h : HandshakeAt .aPwait D [] ds s) (early : s.ctl.now + s.params.tPoll < D) :
    ∃ t, Passes s 1 s.params.tPoll [] t ∧ HandshakeAt .aPtx D [] ds t := by
  have full : pollWait s = s.params.tPoll := by
    rw [pollWait, h.deadline]
    omega
  have next := execActivate_wait_early h.point (by rwa [full, h.deadline])
  rw [full] at next
  exact h.wait nofun next

/-- A wait that the deadline cuts short ends the handshake at the deadline (R176, R177). -/
theorem HandshakeAt.cutWait (h : HandshakeAt .aPwait D [] ds s) (late : D ≤ s.ctl.now + s.params.tPoll) :
    EndsIn s 1 (D - s.ctl.now) [] .timedOut .activationTimedOut := by
  have cut : pollWait s = D - s.ctl.now := by
    rw [pollWait, h.deadline]
    omega
  have next := execActivate_wait_late h.point (by rw [cut, h.deadline]; omega)
  rw [timeOut_of_op (s := waitTicks (pollWait s) s) h.op, cut] at next
  exact h.endsIn nofun next rfl rfl (List.append_nil _).symm

/-! ### The polls of a handshake -/

/-- A poll that fails a whole interval before the deadline. -/
theorem HandshakeAt.failedPoll (h : HandshakeAt .aPtx D [] (pollDraws r ++ ds) s) (len : r.length ≤ 11)
    (failed : parseActivationAck r ≠ .ok true) (early : s.ctl.now + s.params.tPoll < D) :
    ∃ t, Passes s 3 s.params.tPoll (pollTrace s.params.statusAddr s.params.tPoll s.ctl.now [r]) t ∧
      HandshakeAt .aPtx D [] ds t := by
  obtain ⟨u, polled, hu⟩ := h.earlyPoll len failed (by omega)
  obtain ⟨t, waited, ht⟩ := hu.fullWait (by rwa [polled.now, polled.params])
  exact ⟨t, by simpa [polled.params] using polled.trans waited, ht⟩

/-- The last poll of a handshake that times out: less than an interval before the deadline. -/
theorem HandshakeAt.lastPoll (h : HandshakeAt .aPtx D [] (pollDraws r ++ ds) s) (len : r.length ≤ 11)
    (failed : parseActivationAck r ≠ .ok true) (early : s.ctl.now < D)
    (late : D ≤ s.ctl.now + s.params.tPoll) :
    EndsIn s 3 (D - s.ctl.now) (pollTrace s.params.statusAddr s.params.tPoll s.ctl.now [r]) .timedOut
      .activationTimedOut := by
  obtain ⟨u, polled, hu⟩ := h.earlyPoll len failed early
  simpa [polled.now] using polled.endsIn (hu.cutWait (by rwa [polled.now, polled.params]))

end Handshake

theorem pollTrace_append (addr : Half) (period t : Nat) (xs ys : List Frame) :
    pollTrace addr period t (xs ++ ys) =
      pollTrace addr period t xs ++ pollTrace addr period (t + xs.length * period) ys := by
  induction xs generalizing t with
  | nil => simp [pollTrace]
  | cons x xs ih => simp [pollTrace, ih, Nat.succ_mul, Nat.add_assoc, Nat.add_comm period]

/-- Polls that fail, each a whole interval before the deadline. -/
theorem HandshakeAt.failedPolls {D : Nat} {fails : List Frame} {ds : List Draw}
    (h : HandshakeAt .aPtx D [] (fails.flatMap pollDraws ++ ds) s)
    (failed : ∀ r, r ∈ fails → r.length ≤ 11 ∧ parseActivationAck r ≠ .ok true)
    (early : fails ≠ [] → s.ctl.now + fails.length * s.params.tPoll < D) :
    ∃ t, Passes s (3 * fails.length) (fails.length * s.params.tPoll)
        (pollTrace s.params.statusAddr s.params.tPoll s.ctl.now fails) t ∧
      HandshakeAt .aPtx D [] ds t := by
  induction fails generalizing s with
  | nil => exact ⟨s, by simpa [pollTrace] using Passes.refl s, h⟩
  | cons r fails ih =>
    obtain ⟨len, bad⟩ := failed r List.mem_cons_self
    have budget : s.ctl.now + s.params.tPoll + fails.length * s.params.tPoll < D := by
      have := early nofun
      rw [List.length_cons, Nat.succ_mul] at this
      omega
    rw [List.flatMap_cons, List.append_assoc] at h
    obtain ⟨u, polled, hu⟩ := h.failedPoll len bad (by omega)
    obtain ⟨t, rest, ht⟩ := ih hu (fun x mem => failed x (List.mem_cons_of_mem r mem))
      fun _ => by rwa [polled.now, polled.params]
    refine ⟨t, ?_, ht⟩
    simpa [polled.now, polled.params, pollTrace, Nat.add_comm _ 1, Nat.mul_add, Nat.add_mul] using
      polled.trans rest

section Ends

variable {D : Nat} {fails : List Frame} {last : Frame} {ds : List Draw}

theorem HandshakeAt.failedPolls_append (h : HandshakeAt .aPtx D [] ((fails ++ [last]).flatMap pollDraws ++ ds) s)
    (failed : ∀ r, r ∈ fails → r.length ≤ 11 ∧ parseActivationAck r ≠ .ok true)
    (early : fails ≠ [] → s.ctl.now + fails.length * s.params.tPoll < D) :
    ∃ t, Passes s (3 * fails.length) (fails.length * s.params.tPoll)
        (pollTrace s.params.statusAddr s.params.tPoll s.ctl.now fails) t ∧
      HandshakeAt .aPtx D [] (pollDraws last ++ ds) t := by
  rw [List.flatMap_append, List.append_assoc, List.flatMap_singleton] at h
  exact h.failedPolls failed early

/-- Failed polls, then a ready one. -/
theorem HandshakeAt.pollsUntilReady (h : HandshakeAt .aPtx D [] ((fails ++ [last]).flatMap pollDraws ++ ds) s)
    (failed : ∀ r, r ∈ fails → r.length ≤ 11 ∧ parseActivationAck r ≠ .ok true) (len : last.length ≤ 11)
    (ready : parseActivationAck last = .ok true)
    (early : fails ≠ [] → s.ctl.now + fails.length * s.params.tPoll < D) :
    EndsIn s (3 * fails.length + 2) (fails.length * s.params.tPoll)
      (pollTrace s.params.statusAddr s.params.tPoll s.ctl.now (fails ++ [last])) .activated .none := by
  obtain ⟨t, polled, ht⟩ := h.failedPolls_append failed early
  rw [pollTrace_append]
  simpa [polled.now, polled.params] using polled.endsIn (ht.readyPoll len ready)

/-- Failed polls, the last of them less than an interval before the deadline, which is `d` ticks away. -/
theorem HandshakeAt.pollsUntilDeadline {d : Nat}
    (h : HandshakeAt .aPtx D [] ((fails ++ [last]).flatMap pollDraws ++ ds) s)
    (failed : ∀ r, r ∈ fails ++ [last] → r.length ≤ 11 ∧ parseActivationAck r ≠ .ok true)
    (budget : s.ctl.now + d = D) (early : fails.length * s.params.tPoll < d)
    (late : d ≤ fails.length * s.params.tPoll + s.params.tPoll) :
    EndsIn s (3 * fails.length + 3) d
      (pollTrace s.params.statusAddr s.params.tPoll s.ctl.now (fails ++ [last])) .timedOut
      .activationTimedOut := by
  obtain ⟨t, polled, ht⟩ :=
    h.failedPolls_append (fun r mem => failed r (List.mem_append_left _ mem)) fun _ => by omega
  obtain ⟨len, bad⟩ := failed last (List.mem_append_right _ (List.mem_singleton_self _))
  have now := polled.now
  have ends := polled.endsIn (ht.lastPoll len bad (by omega) (by rw [polled.params]; omega))
  have ticks : fails.length * s.params.tPoll + (D - t.ctl.now) = d := by omega
  rwa [ticks, polled.params, now, ← pollTrace_append] at ends

end Ends

/-! ### The schedule -/

section Schedule

variable {polls : List Frame} {rest : List Draw} {n d : Nat} {act : ActState} {c : FaultCode}

theorem handshakeAt_of_zeroDuration (start : ZeroDurationHandshake s polls rest) :
    HandshakeAt .aClr s.ctl.deadline s.link.pending
      (instantDraw :: instantDraw :: (polls.flatMap pollDraws ++ rest)) s :=
  ⟨start.atClear, start.running.1, start.running.2, start.alone, rfl, rfl, start.oracle⟩

/-- The handshake ends as its polls do: they start `2S` ticks after A_CLR, with the deadline `T` ticks after it. -/
theorem run_of_polls (start : ZeroDurationHandshake s polls rest)
    (loop : ∀ t, t.params = s.params → t.ctl.now = s.ctl.now + 2 * s.params.tSettle →
      HandshakeAt .aPtx (s.ctl.now + s.params.tActTimeout) [] (polls.flatMap pollDraws ++ rest) t →
      EndsIn t n d (pollTrace t.params.statusAddr t.params.tPoll t.ctl.now polls) act c) :
    ∃ t, Sys2Proof.core.run (5 + n) s = .next t ∧ t.regs = { s.regs with actState := act } ∧
      t.ctl.phase = .done ∧ t.ctl.resp = ⟨c, 0#8, 0#12, 0#8, 0#16, 0x03#8⟩ ∧
      t.ctl.now = s.ctl.now + 2 * s.params.tSettle + d ∧
      t.link.trace = s.link.trace ++ settleTrace s.params.tSettle s.ctl.now ++
        pollTrace s.params.statusAddr s.params.tPoll (s.ctl.now + 2 * s.params.tSettle) polls := by
  obtain ⟨t, settled, ht⟩ := (handshakeAt_of_zeroDuration start).settle
  have ends := loop t settled.params settled.now ht
  rw [settled.params, settled.now] at ends
  obtain ⟨u, run, regs, phase, resp, now, trace⟩ := settled.endsIn ends
  exact ⟨u, run, regs, phase, resp, by rw [now, Nat.add_assoc], by rw [trace, List.append_assoc]⟩

end Schedule

/-- Settles O50: the failed polls, each an interval before the deadline, then the ready one. -/
theorem pollScheduleOfSuccess : Obligations.PollScheduleOfSuccess := by
  intro s fails good rest start failed len ready budget
  refine run_of_polls (n := 3 * fails.length + 2) start fun t params now h => ?_
  have early : fails ≠ [] →
      t.ctl.now + fails.length * t.params.tPoll < s.ctl.now + s.params.tActTimeout := fun some => by
    have := budget some
    rw [params]
    omega
  simpa only [params] using h.pollsUntilReady failed len.le ready early

/-- `n + 1` intervals are the fewest that cover `x` ticks. -/
theorem bounds_of_ceil {x period n : Nat} (pos : 0 < period) (ceil : n + 1 = (x + (period - 1)) / period) :
    n * period < x ∧ x ≤ n * period + period := by
  have below := Nat.div_mul_le_self (x + (period - 1)) period
  have above := Nat.lt_div_mul_add pos (a := x + (period - 1))
  rw [← ceil, Nat.succ_mul] at below above
  omega

/-- Settles O51: all polls but the last fail an interval before the deadline, and the last wait is cut at it. -/
theorem pollScheduleOfTimeout : Obligations.PollScheduleOfTimeout := by
  intro s fails rest start failed pos positive ceil
  have some : 0 < fails.length := ceil ▸ Nat.div_pos (by omega) pos
  obtain ⟨init, last, rfl⟩ :=
    (List.eq_nil_or_concat' fails).resolve_left (List.ne_nil_of_length_pos some)
  rw [List.length_append, List.length_singleton] at ceil ⊢
  obtain ⟨early, late⟩ := bounds_of_ceil pos ceil
  obtain ⟨t, run, regs, phase, resp, now, trace⟩ :=
    run_of_polls (n := 3 * init.length + 3) (d := s.params.tActTimeout - 2 * s.params.tSettle) start
      fun t params now h =>
        h.pollsUntilDeadline failed (by omega) (by rwa [params]) (by rwa [params])
  exact ⟨t, run, regs, phase, resp, by omega, trace⟩

/-- Settles O52: the first poll comes after the deadline. -/
theorem lateFirstPollIsTheOnlyOne : Obligations.LateFirstPollIsTheOnlyOne := by
  intro s r rest start len failed short
  exact run_of_polls (n := 2) start fun t _ now h => h.latePoll len failed (by omega)

end Sys2Proof.Machine

/-! OPEN, CLOSE, SET_POSITION and the status commands step by step (45_session_commands.md R194–R199): the
outcomes of their steps, and the next state at each control point. -/

namespace Sys2Proof.Machine

variable {s : State}

/-! ### OPEN and CLOSE -/

theorem openCheck_of_open (opened : s.regs.sessionOpen = true) :
    openCheck s = respond (Resp.plain .none 0x01#8) s :=
  if_pos opened

theorem openCheck_of_closed (closed : s.regs.sessionOpen = false) : openCheck s = goTo .oOpen s := by
  simp [openCheck, closed]

theorem closeCheck_of_open (opened : s.regs.sessionOpen = true) : closeCheck s = goTo .oClose s :=
  if_pos opened

theorem closeCheck_of_closed (closed : s.regs.sessionOpen = false) :
    closeCheck s = respond (Resp.plain .none 0x02#8) s := by
  simp [closeCheck, closed]

/-- The transport after a `TOpen` that succeeds: its pending bytes are the draw's (20_memory.md R59). -/
theorem tOpen_of_success (ok : s.link.draw.ok = true) : tOpen s = { s with
    ctl := { s.ctl with now := s.ctl.now + s.link.draw.dur }
    link := s.link.transact s.link.draw.arrive (.opened true s.ctl.now) } := by
  simp [tOpen, ok]

theorem tOpen_of_failure (fails : s.link.draw.ok = false) : tOpen s = { s with
    ctl := { s.ctl with now := s.ctl.now + s.link.draw.dur }
    link := s.link.transact s.link.pending (.opened false s.ctl.now) } := by
  simp [tOpen, fails]

theorem openTransport_of_success (ok : s.link.draw.ok = true) :
    openTransport s = respond (Resp.plain .none 0x01#8) (setSession true (tOpen s)) :=
  if_pos ok

theorem openTransport_of_failure (fails : s.link.draw.ok = false) :
    openTransport s = raiseFault .connectionFault (tOpen s) := by
  simp [openTransport, fails]

theorem execOpen_exec (p : s.ctl.phase = .exec) : execOpen s = .next (openCheck s) := by
  simp [execOpen, p]

theorem execOpen_oOpen (p : s.ctl.phase = .oOpen) : execOpen s = .next (openTransport s) := by
  simp [execOpen, p]

theorem execClose_exec (p : s.ctl.phase = .exec) : execClose s = .next (closeCheck s) := by
  simp [execClose, p]

theorem execClose_oClose (p : s.ctl.phase = .oClose) : execClose s = .next (closeTransport s) := by
  simp [execClose, p]

/-- Settles O17: the check at EXEC, then the two results of the `TOpen`. -/
theorem openExecutes : Obligations.OpenExecutes := by
  intro s
  refine ⟨fun p opened => ?_, fun p closed => ?_, fun p ok => ?_, fun p fails => ?_⟩
  · exact (execOpen_exec p).trans (congrArg _ (openCheck_of_open opened))
  · exact (execOpen_exec p).trans (congrArg _ (openCheck_of_closed closed))
  · rw [exec, execOpen_oOpen p, openTransport_of_success ok, tOpen_of_success ok]
    rfl
  · rw [exec, execOpen_oOpen p, openTransport_of_failure fails, tOpen_of_failure fails]
    rfl

/-- Settles O18: the check at EXEC, then the `TClose`. -/
theorem closeExecutes : Obligations.CloseExecutes := fun _ =>
  ⟨fun p closed => (execClose_exec p).trans (congrArg _ (closeCheck_of_closed closed)),
    fun p opened => (execClose_exec p).trans (congrArg _ (closeCheck_of_open opened)),
    execClose_oClose⟩

/-! ### SET_POSITION -/

/-- The gates of an activated session (60_exceptions.md R234). -/
theorem ifActivated_of_activated (k : State → State) (opened : s.regs.sessionOpen = true)
    (act : s.regs.actState = .activated) : ifActivated k s = k s := by
  simp [ifActivated, opened, act]

/-- MOTION_ENC takes the three clamped bytes of the frame (R196). -/
theorem motionBytes_buildMotionRequest (tie : RoundTie) (a0 a1 a2 : Word) :
    motionBytes (buildMotionRequest tie a0 a1 a2) =
      clampRound tie a2 ++ clampRound tie a1 ++ clampRound tie a0 :=
  rfl

theorem onWriteAck_of_accepted {r : Frame} (accepted : parseWriteAck r = .ok ()) :
    onWriteAck r s = respond (Resp.plain .none 0x04#8) s := by
  simp [onWriteAck, accepted]

section SetPosition

variable {a0 a1 a2 : Word}

theorem execSetPosition_exec (p : s.ctl.phase = .exec) : execSetPosition a0 a1 a2 s =
    .next (ifActivated (fun s => goTo .xTx (buildMotion a0 a1 a2 s)) s) := by
  simp [execSetPosition, p]

theorem execSetPosition_xTx (p : s.ctl.phase = .xTx) :
    execSetPosition a0 a1 a2 s = .next (goTo .xRx (txWrite s.ctl.txBuf s)) := by
  simp [execSetPosition, p]

theorem execSetPosition_xRx (p : s.ctl.phase = .xRx) :
    execSetPosition a0 a1 a2 s = .next (rxReadThen ackLen onWriteAck s) := by
  simp [execSetPosition, p]

end SetPosition

/-- Settles O19: the frame is built behind the gates, written from TXBUF, and its acknowledgement read. -/
theorem setPositionExecutes : Obligations.SetPositionExecutes := by
  intro s a0 a1 a2
  refine ⟨fun p opened act => ?_, fun p => execSetPosition_xTx p, fun r p returns read accepted => ?_⟩
  · rw [exec, execSetPosition_exec p, ifActivated_of_activated _ opened act,
      ← motionBytes_buildMotionRequest]
    rfl
  · rw [exec, execSetPosition_xRx p, rxReadThen_of_returns (n := ackLen) _ returns read,
      onWriteAck_of_accepted accepted]
    rfl

/-! ### The status commands -/

theorem onStatus_of_parsed {keep : StatusValue → State → State} {r : Frame} {v : StatusValue}
    (parsed : parseStatus r = .ok v) : onStatus keep r s = keep v s := by
  simp [onStatus, parsed]

section StatusExchange

variable {keep : StatusValue → State → State}

theorem statusExchange_exec (p : s.ctl.phase = .exec) :
    statusExchange keep s = .next (ifActivated (goTo .xTx) s) := by
  simp [statusExchange, p]

theorem statusExchange_xTx (p : s.ctl.phase = .xTx) : statusExchange keep s =
    .next (goTo .xRx (txWrite (buildStatusReadRequest s.params.statusAddr) s)) := by
  simp [statusExchange, p]

theorem statusExchange_xRx (p : s.ctl.phase = .xRx) :
    statusExchange keep s = .next (rxReadThen statusLen (onStatus keep) s) := by
  simp [statusExchange, p]

end StatusExchange

/-- A status command is a status exchange that keeps its part of the response (R197–R199). -/
theorem exists_keep_of_status {i : Instr} (status : i = .getPosition ∨ i = .getCurrent ∨ i = .getStatus) :
    ∃ keep, (∀ s, exec i s = statusExchange keep s) ∧
      ∀ v s, keep v s =
        respond (statusResult i v s.regs).2 { s with regs := (statusResult i v s.regs).1 } := by
  rcases status with rfl | rfl | rfl
  · exact ⟨keepPosition, fun _ => rfl, fun _ _ => rfl⟩
  · exact ⟨keepCurrent, fun _ => rfl, fun _ _ => rfl⟩
  · exact ⟨keepStatus, fun _ => rfl, fun _ _ => rfl⟩

/-- Settles O20: one exchange for the three commands, told apart by what they keep. -/
theorem statusCommandsExecute : Obligations.StatusCommandsExecute := by
  intro s i status
  obtain ⟨keep, runs, keeps⟩ := exists_keep_of_status status
  refine ⟨fun p opened act => ?_, fun p => ?_, fun r v p returns read parsed => ?_⟩
  · rw [runs, statusExchange_exec p, ifActivated_of_activated _ opened act]
    rfl
  · rw [runs, statusExchange_xTx p]
    rfl
  · rw [runs, statusExchange_xRx p, rxReadThen_of_returns (n := statusLen) _ returns read,
      onStatus_of_parsed parsed, keeps]
    rfl

end Sys2Proof.Machine

/-! The completion step (45_session_commands.md R192): the response word as an OR of shifted fields
(30_encoding.md R80), the step at DONE of every request, and the requests that are no command (R193, R205). -/

namespace Sys2Proof.Machine

variable {s : State}

/-! ### The response word as an OR of fields -/

/-- Two fields side by side are the OR of the lower one and the shifted upper one. -/
theorem setWidth_append_eq_or {m n : Nat} (k : Nat) (x : BitVec m) (y : BitVec n) :
    (x ++ y).setWidth k = y.setWidth k ||| x.setWidth k <<< n := by
  apply BitVec.eq_of_getLsbD_eq
  intro i hi
  by_cases low : i < n
  · simp [BitVec.getLsbD_append, hi, low]
  · simp [BitVec.getLsbD_append, hi, low, BitVec.getLsbD_of_ge y i (by omega)]

theorem responseWord_eq_or (act : ActState) (r : Resp) : responseWord act r =
    r.fault.code.setWidth 64 ||| (act.code.setWidth 64 <<< 4) ||| (r.masked.pos.setWidth 64 <<< 8) |||
      (r.masked.cur.setWidth 64 <<< 16) ||| (r.masked.sta.setWidth 64 <<< 32) |||
      (r.masked.crc.setWidth 64 <<< 40) ||| (r.op.setWidth 64 <<< 56) := by
  rw [responseWord, ← BitVec.setWidth_eq (_ ++ r.fault.code)]
  iterate 8 rw [setWidth_append_eq_or]
  simp only [BitVec.shiftLeft_or_distrib, ← BitVec.shiftLeft_add, BitVec.or_assoc, Nat.reduceAdd,
    BitVec.reduceSetWidth, BitVec.zero_or]

/-- A response without data has only its opcode, ACT and FAULT. -/
theorem responseWord_plain (act : ActState) (c : FaultCode) (op : Byte) :
    responseWord act (Resp.plain c op) = op ++ 0#50 ++ act.code ++ c.code := by
  rw [responseWord_eq_or, ← BitVec.setWidth_eq (_ ++ c.code)]
  iterate 3 rw [setWidth_append_eq_or]
  simp [Resp.plain, Resp.masked_pos, Resp.masked_cur, Resp.masked_sta, Resp.masked_crc,
    BitVec.shiftLeft_or_distrib, ← BitVec.shiftLeft_add, BitVec.or_assoc]

/-- A response with a position only, in an activated session. -/
theorem responseWord_position (pos op : Byte) :
    responseWord .activated ⟨.none, pos, 0#12, 0#8, 0#16, op⟩ = op ++ 0#40 ++ pos ++ 0x20#8 := by
  rw [responseWord_eq_or, ← BitVec.setWidth_eq (_ ++ 0x20#8)]
  iterate 3 rw [setWidth_append_eq_or]
  simp [Resp.masked_pos, Resp.masked_cur, Resp.masked_sta, Resp.masked_crc, ActState.code, FaultCode.code,
    FaultCode.num, BitVec.shiftLeft_or_distrib, ← BitVec.shiftLeft_add, BitVec.or_assoc]

/-! ### The step at DONE -/

theorem complete_eq_answered (s : State) : complete s = answered s := by
  rw [complete, answered, responseWord_eq_or, Resp.masked_pos, Resp.masked_cur, Resp.masked_sta,
    Resp.masked_crc, logFault]

/-- Every command completes at DONE. -/
theorem exec_done {i : Instr} (command : isCommand i = true) (p : s.ctl.phase = .done) :
    exec i s = .next (complete s) := by
  cases i with
  | openCmd => simp [exec, execOpen, p]
  | closeCmd => simp [exec, execClose, p]
  | activate => simp [exec, execActivate, p]
  | setPosition => simp [exec, execSetPosition, p]
  | getPosition => simp [exec, execGetPosition, statusExchange, p]
  | getCurrent => simp [exec, execGetCurrent, statusExchange, p]
  | getStatus => simp [exec, execGetStatus, statusExchange, p]
  | crcInit => simp [exec, execCrcInit, p]
  | crcByte => simp [exec, execCrcByte, p]
  | _ => exact nomatch command

/-- Settles O29: the concatenation of the fields is their OR. -/
theorem completionDeliversTheResponse : Obligations.CompletionDeliversTheResponse := fun s _ command p =>
  (exec_done command p).trans (congrArg _ (complete_eq_answered s))

/-- What a request asks for is a command, never a wire frame. -/
theorem isCommand_of_decodeRequest {r : Request} {i : Instr} (decodes : decodeRequest r = .ok i) :
    isCommand i = true := by
  obtain ⟨-, command⟩ := decodeRequest_ok decodes
  rcases command with ⟨-, rfl⟩ | ⟨-, rfl⟩ | ⟨-, rfl⟩ | ⟨-, rfl⟩ | ⟨-, rfl⟩ | ⟨-, rfl⟩ | ⟨-, rfl⟩ |
    ⟨-, rfl⟩ | ⟨-, rfl⟩ <;> rfl

/-- A request that is no command runs the two steps of R205. -/
theorem step_of_illegal {e : DecodeError} (noInput : s.hosts.inputs = []) (running : s.ctl.phase ≠ .idle)
    (bad : decodeRequest s.latch = .error e) : step s = runIllegal s := by
  simp [step, noInput, coreStep, running, bad]

/-- Every request completes at DONE, a command or not. -/
theorem step_done (noInput : s.hosts.inputs = []) (p : s.ctl.phase = .done) :
    step s = .next (complete s) := by
  have running : s.ctl.phase ≠ .idle := by simp [p]
  cases decoded : decodeRequest s.latch with
  | ok i => rw [step_eq_exec noInput running decoded, exec_done (isCommand_of_decodeRequest decoded) p]
  | error e =>
    rw [step_of_illegal noInput running decoded]
    simp [runIllegal, p]

/-! ### Requests that are no command -/

theorem step_illegal {e : DecodeError} (noInput : s.hosts.inputs = []) (p : s.ctl.phase = .exec)
    (bad : decodeRequest s.latch = .error e) : step s = .next (raiseFault .illegalCommand s) := by
  rw [step_of_illegal noInput (by simp [p]) bad]
  simp [runIllegal, p]

/-- Settles O30: the fault at EXEC, the completion at DONE, and the two in a row. -/
theorem illegalRequestsFault : Obligations.IllegalRequestsFault := by
  intro s noInput reserved
  rw [← not_mem_commandOpcodes_iff, ← decodeRequest_error_iff] at reserved
  obtain ⟨e, bad⟩ := reserved
  refine ⟨fun p => step_illegal noInput p bad,
    fun p => (step_done noInput p).trans (congrArg _ (complete_eq_answered s)), fun p => ?_⟩
  have run :=
    calc Sys2Proof.core.run 2 s
      _ = Sys2Proof.core.run 1 (raiseFault .illegalCommand s) := run_succ 1 (step_illegal noInput p bad)
      _ = Sys2Proof.core.run 0 _ := run_succ 0 (step_done noInput rfl)
  refine ⟨_, run, rfl, rfl, rfl, ?_⟩
  rw [complete_hosts, raiseFault_ctl, responseWord_plain]
  rfl

end Sys2Proof.Machine

/-! Which instruction a step runs (45_session_commands.md R190, R191): the latched request's command, the row
that `withFetchWord` places, and the acceptance of a held request. -/

namespace Sys2Proof.Machine

variable {s : State}

/-! ### The latched command -/

/-- Settles O26, with and without a listed turn of the core. -/
theorem stepRunsTheLatchedCommand : Obligations.StepRunsTheLatchedCommand := fun _ _ running command =>
  ⟨fun noInput => step_eq_exec noInput running command, fun _ inputs => step_running inputs running command⟩

/-! ### Held requests -/

/-- A host that holds none gets its request held. -/
theorem mem_holdRequest_of_free {h : HostId} {w : BitVec 128} :
    ∀ {xs : List (HostId × BitVec 128)}, (∀ x, x ∈ xs → x.1 ≠ h) → (h, w) ∈ holdRequest h w xs
  | [], _ => List.mem_singleton_self _
  | (h', w') :: rest, free => by
    have other : h ≠ h' := (free (h', w') List.mem_cons_self).symm
    rw [holdRequest, if_neg other]
    split
    · exact List.mem_cons_self
    · exact List.mem_cons_of_mem _ (mem_holdRequest_of_free fun x hx => free x (List.mem_cons_of_mem _ hx))

/-- Settles O43: the held requests are those of `holdRequest`. -/
theorem presentedRequestsAreHeld : Obligations.PresentedRequestsAreHeld := fun _ _ _ _ inputs =>
  ⟨_, step_present inputs, fun _ => mem_holdRequest_of_mem,
    fun free => ⟨mem_holdRequest_of_free free, fun _ => mem_holdRequest⟩⟩

/-- The idle core accepts the held request at the arbiter's pick. -/
theorem acceptNext_of_pick {k : Nat} {picks : List Nat} {h : HostId} {w : BitVec 128}
    (pick : s.hosts.picks = k :: picks) (held : s.hosts.held[k]? = some (h, w)) :
    acceptNext s = accept h w { s with hosts := { s.hosts with
      held := s.hosts.held.eraseIdx k
      picks := picks
      arbitrations := s.hosts.arbitrations + 1 } } := by
  obtain ⟨inRange, -⟩ := List.getElem?_eq_some_iff.mp held
  simp [acceptNext, Hosts.pick, pick, Nat.mod_eq_of_lt inRange, held]

/-- Settles O44: acceptance of the picked request, field by field. -/
theorem idleCoreAcceptsAnyHeldRequest : Obligations.IdleCoreAcceptsAnyHeldRequest := by
  intro s k picks h w idle noInput pick held
  have accepts : step s = .next (acceptNext s) := by simp [step, noInput, coreStep, idle]
  rw [accepts, acceptNext_of_pick pick held]
  rfl

/-! ### Placed instructions -/

/-- The encoding decodes to the instruction that the table row is read as. -/
theorem decode_of_decodeTableWord {nbits w : Nat} {i : Instr} (decodes : decodeTableWord nbits w = some i) :
    decode (tableEncoding nbits w) = .ok i := by
  unfold decodeTableWord at decodes
  cases decoded : decode (tableEncoding nbits w) with
  | ok j => rw [decoded] at decodes; exact congrArg _ (Option.some.inj decodes)
  | error e => rw [decoded] at decodes; exact nomatch decodes

/-- The step of a running core is its command's. -/
theorem coreStep_running {i : Instr} (running : s.ctl.phase ≠ .idle)
    (command : decodeRequest s.latch = .ok i) : coreStep s = exec i s := by
  simp [coreStep, running, command]

/-- The transport's next read returns the bytes placed for it. -/
theorem readBytes_placeReceived {bytes : Frame} {n : Nat} (len : bytes.length = n) (s : State) :
    (placeReceived bytes s).link.readBytes n = bytes := by
  simp [placeReceived, Link.readBytes, Link.pool, Link.draw, len]

/-- The core's step in a state placed for a sent frame is the frame's. -/
theorem coreStep_placeSent {f : Frame} {i : Instr} (decodes : decodeSent f = .ok i) (wf : i.wf = true)
    (es : List Event) :
    coreStep ((placeSent f s).withInputs es) = exec i ((placeSent f s).withInputs es) := by
  rcases decodeSent_ok decodes with ⟨rfl, -⟩ | ⟨rfl, -⟩ | ⟨p, v, g, crc, rfl, rfl⟩ | ⟨addr, crc, rfl, -⟩ <;>
    simp only [placeSent, decodes]
  case inl | inr.inl | inr.inr.inl => rfl
  case inr.inr.inr => exact (exec_frameStatusRead_exchange wf rfl (.inr (.inr rfl))).symm

/-- The core's step in a state placed for a received frame is the frame's. -/
theorem coreStep_placeReceived {f : Frame} {i : Instr} (decodes : decodeReceived f = .ok i)
    (es : List Event) : coreStep ((place (.received f) s).withInputs es) =
      exec i ((place (.received f) s).withInputs es) := by
  rcases decodeReceived_ok decodes with ⟨len, rfl⟩ | ⟨len, rfl⟩
  · have placed : place (.received f) s = placeReceived f (placeAt 0x04#8 .xRx s) := if_pos len
    rw [placed]
    exact congrArg Host.Outcome.next
      (rxReadThen_of_returns (n := ackLen) (s := State.withInputs es _) onWriteAck rfl
        (readBytes_placeReceived len _))
  · have placed : place (.received f) s = placeReceived f (placeAt 0x07#8 .xRx s) :=
      if_neg (by simp [len, ackLen])
    rw [placed]
    exact congrArg Host.Outcome.next
      (rxReadThen_of_returns (n := statusLen) (s := State.withInputs es _) (onStatus keepStatus) rfl
        (readBytes_placeReceived len _))

/-- Settles O27: the turn of the core is listed first, and its step runs what was placed. -/
theorem fetchWordRunsTheRow : Obligations.FetchWordRunsTheRow := by
  intro s nbits w i decodes wf
  have decoded := decode_of_decodeTableWord decodes
  change coreStep ((place (tableEncoding nbits w) s).withInputs s.hosts.inputs) =
    exec i ((place (tableEncoding nbits w) s).withInputs s.hosts.inputs)
  generalize tableEncoding nbits w = e at decoded ⊢
  cases e with
  | request r => exact coreStep_running (by simp [place]) decoded
  | sent f => exact coreStep_placeSent decoded wf _
  | received f => exact coreStep_placeReceived decoded _

end Sys2Proof.Machine

/-! What the exchanges change (45_session_commands.md R200, R202): never the activation, and a result register
only to what a validated response holds. -/

namespace Sys2Proof.Machine

variable {s t : State}

/-! ### What the exchanges leave -/

/-- The registers that only OPEN, CLOSE, ACTIVATE and the CRC commands write (R200, 10_state.md R40). -/
def State.activation (s : State) : ActState × Bool × Half :=
  (s.regs.actState, s.regs.sessionOpen, s.regs.crcAcc)

theorem activation_ifActivated {k : State → State} (keeps : (k s).activation = s.activation) :
    (ifActivated k s).activation = s.activation := by
  rcases ifActivated_cases k s with ⟨-, e⟩ | ⟨-, -, e⟩ | ⟨-, -, e⟩ <;> rw [e]
  · rfl
  · rfl
  · exact keeps

theorem activation_rxReadThen (n : Nat) {k : Frame → State → State}
    (keeps : ∀ r u, (k r u).activation = u.activation) : (rxReadThen n k s).activation = s.activation := by
  rcases rxReadThen_cases n k s with ⟨-, e⟩ | ⟨-, e⟩ <;> rw [e]
  exact keeps _ _

theorem activation_onWriteAck (r : Frame) (s : State) : (onWriteAck r s).activation = s.activation := by
  rcases onWriteAck_cases r s with ⟨c, -, e⟩ | ⟨-, e⟩ <;> rw [e] <;> rfl

theorem activation_onStatus {keep : StatusValue → State → State}
    (keeps : ∀ v u, (keep v u).activation = u.activation) (r : Frame) (s : State) :
    (onStatus keep r s).activation = s.activation := by
  rcases onStatus_cases keep r s with ⟨c, -, e⟩ | ⟨v, -, e⟩ <;> rw [e]
  · rfl
  · exact keeps v s

theorem activation_setPosition {a0 a1 a2 : Word} (next : execSetPosition a0 a1 a2 s = .next t) :
    t.activation = s.activation := by
  rcases execSetPosition_next next with ⟨-, rfl⟩ | ⟨-, rfl⟩ | ⟨-, rfl⟩ | ⟨-, rfl⟩
  · exact activation_ifActivated rfl
  · rfl
  · exact activation_rxReadThen ackLen activation_onWriteAck
  · rfl

theorem activation_statusExchange {keep : StatusValue → State → State}
    (keeps : ∀ v u, (keep v u).activation = u.activation) (next : statusExchange keep s = .next t) :
    t.activation = s.activation := by
  rcases statusExchange_next next with ⟨-, rfl⟩ | ⟨-, rfl⟩ | ⟨-, rfl⟩ | ⟨-, rfl⟩
  · exact activation_ifActivated rfl
  · rfl
  · exact activation_rxReadThen statusLen (activation_onStatus keeps)
  · rfl

/-- Settles O35: a motion exchange or one of the three status exchanges. -/
theorem exchangesKeepTheActivation : Obligations.ExchangesKeepTheActivation := by
  intro s t i exchange next
  have kept : t.activation = s.activation := by
    rcases isExchange_cases exchange with ⟨a0, a1, a2, rfl⟩ | rfl | rfl | rfl
    · exact activation_setPosition next
    · exact activation_statusExchange (keep := keepPosition) (fun _ _ => rfl) next
    · exact activation_statusExchange (keep := keepCurrent) (fun _ _ => rfl) next
    · exact activation_statusExchange (keep := keepStatus) (fun _ _ => rfl) next
  simpa only [State.activation, Prod.mk.injEq] using kept

/-! ### What a result register takes -/

/-- The results that a command keeps (10_state.md R28, R29, R31). -/
def State.results (s : State) : Byte × BitVec 12 × Byte :=
  (s.regs.lastPos, s.regs.lastCur, s.regs.lastSta)

/-- The read of this step validated, the command succeeds, and each result is kept or is what was parsed. -/
def TakesResults (s t : State) : Prop :=
  ∃ v, parseStatus t.ctl.rxBuf = .ok v ∧ t.ctl.resp.fault = .none ∧
    (t.regs.lastPos = s.regs.lastPos ∨ t.regs.lastPos = v.pos) ∧
    (t.regs.lastCur = s.regs.lastCur ∨ t.regs.lastCur = v.cur) ∧
    (t.regs.lastSta = s.regs.lastSta ∨ t.regs.lastSta = v.sta)

/-- At X_RX the core's only moves are the reads of the two kinds of exchange. -/
theorem CoreMove.eq_read (m : CoreMove s t) (p : s.ctl.phase = .xRx) :
    t = rxReadThen ackLen onWriteAck s ∨
      ∃ keep, keepOf s.latch.op = some keep ∧ t = rxReadThen statusLen (onStatus keep) s := by
  cases m with
  | readAck => exact .inl rfl
  | readStatus _ keep run => exact .inr ⟨keep, run, rfl⟩
  | _ => simp_all only [reduceCtorEq]

/-- The results are written at X_RX only. -/
theorem RegWrite.results_kept {runs : Byte → Bool} {p : Phase} (w : RegWrite p runs s.regs t.regs)
    (xRx : p ≠ .xRx) : t.results = s.results := by
  unfold State.results
  generalize t.regs = r at w
  cases w with
  | position p | current p | status p => exact absurd p xRx
  | _ => rfl

theorem results_readAck : (rxReadThen ackLen onWriteAck s).results = s.results := by
  rcases rxReadThen_cases ackLen onWriteAck s with ⟨-, e⟩ | ⟨-, e⟩ <;> rw [e]
  rcases onWriteAck_cases (s.link.readBytes ackLen) (rxReadReturns ackLen (s.link.readBytes ackLen) s) with
    ⟨c, -, e⟩ | ⟨-, e⟩ <;> rw [e] <;> rfl

/-- A read of a status exchange takes results exactly when its bytes parse. -/
theorem results_readStatus {keep : StatusValue → State → State} (run : keepOf s.latch.op = some keep) :
    (rxReadThen statusLen (onStatus keep) s).results = s.results ∨
      TakesResults s (rxReadThen statusLen (onStatus keep) s) := by
  rcases rxReadThen_cases statusLen (onStatus keep) s with ⟨-, e⟩ | ⟨-, e⟩ <;> rw [e]
  · exact .inl rfl
  rcases onStatus_cases keep (s.link.readBytes statusLen)
    (rxReadReturns statusLen (s.link.readBytes statusLen) s) with ⟨c, -, e⟩ | ⟨v, parsed, e⟩ <;> rw [e]
  · exact .inl rfl
  right
  rcases keepOf_some run with ⟨-, rfl⟩ | ⟨-, rfl⟩ | ⟨-, rfl⟩
  · exact ⟨v, parsed, rfl, .inr rfl, .inl rfl, .inl rfl⟩
  · exact ⟨v, parsed, rfl, .inl rfl, .inr rfl, .inl rfl⟩
  · exact ⟨v, parsed, rfl, .inr rfl, .inr rfl, .inr rfl⟩

theorem CoreMove.results (m : CoreMove s t) : t.results = s.results ∨ TakesResults s t := by
  by_cases p : s.ctl.phase = .xRx
  · rcases m.eq_read p with rfl | ⟨keep, run, rfl⟩
    · exact .inl results_readAck
    · exact results_readStatus run
  · exact .inl (m.writes.regs.results_kept p)

theorem step_results (next : step s = .next t) (noReset : s.resetNext = false) :
    t.results = s.results ∨ TakesResults s t := by
  rcases step_moves next noReset with m | ⟨es, -, m⟩ | m
  · exact m.results
  · exact m.results
  · exact .inl (by rw [State.results, m.regs, State.results])

/-- Settles O38: only the read of a status exchange writes a result. -/
theorem resultsComeFromValidatedResponses : Obligations.ResultsComeFromValidatedResponses := by
  intro s t next noReset changed
  refine (step_results next noReset).resolve_left fun kept => ?_
  simp only [State.results, Prod.mk.injEq] at kept
  obtain ⟨pos, cur, sta⟩ := kept
  simp [pos, cur, sta] at changed

end Sys2Proof.Machine

/-! Whole commands (45_session_commands.md R192, R201, R204): the bound of four steps of every request but a
legal ACTIVATE, and a GET_POSITION from EXEC to its response. -/

namespace Sys2Proof.Machine

variable {s t : State}

/-! ### The steps of an exchange -/

section StatusSteps

variable {keep : StatusValue → State → State}

theorem step_statusCheck (noInput : s.hosts.inputs = []) (rsv : s.latch.rsv = 0#24)
    (run : keepOf s.latch.op = some keep) (p : s.ctl.phase = .exec) :
    step s = .next (ifActivated (goTo .xTx) s) :=
  (step_of_keepOf noInput (by simp [p]) rsv run).trans (statusExchange_exec p)

theorem step_statusWrite (noInput : s.hosts.inputs = []) (rsv : s.latch.rsv = 0#24)
    (run : keepOf s.latch.op = some keep) (p : s.ctl.phase = .xTx) :
    step s = .next (goTo .xRx (txWrite (buildStatusReadRequest s.params.statusAddr) s)) :=
  (step_of_keepOf noInput (by simp [p]) rsv run).trans (statusExchange_xTx p)

theorem step_statusRead (noInput : s.hosts.inputs = []) (rsv : s.latch.rsv = 0#24)
    (run : keepOf s.latch.op = some keep) (p : s.ctl.phase = .xRx) :
    step s = .next (rxReadThen statusLen (onStatus keep) s) :=
  (step_of_keepOf noInput (by simp [p]) rsv run).trans (statusExchange_xRx p)

end StatusSteps

theorem step_motionCheck (noInput : s.hosts.inputs = []) (rsv : s.latch.rsv = 0#24)
    (op : s.latch.op = 0x04#8) (p : s.ctl.phase = .exec) : step s = .next
      (ifActivated (fun u => goTo .xTx (buildMotion s.latch.a0 s.latch.a1 s.latch.a2 u)) s) :=
  (step_of_setPosition noInput (by simp [p]) rsv op).trans (execSetPosition_exec p)

theorem step_motionWrite (noInput : s.hosts.inputs = []) (rsv : s.latch.rsv = 0#24)
    (op : s.latch.op = 0x04#8) (p : s.ctl.phase = .xTx) :
    step s = .next (goTo .xRx (txWrite s.ctl.txBuf s)) :=
  (step_of_setPosition noInput (by simp [p]) rsv op).trans (execSetPosition_xTx p)

theorem step_motionRead (noInput : s.hosts.inputs = []) (rsv : s.latch.rsv = 0#24)
    (op : s.latch.op = 0x04#8) (p : s.ctl.phase = .xRx) :
    step s = .next (rxReadThen ackLen onWriteAck s) :=
  (step_of_setPosition noInput (by simp [p]) rsv op).trans (execSetPosition_xRx p)

/-! ### The bound of four steps -/

/-- A run of at most `n` steps ends IDLE with BUSY 0 and one more response, to the requester. -/
def CompletesWithin (n : Nat) (s : State) : Prop :=
  ∃ k t, k ≤ n ∧ Sys2Proof.core.run k s = .next t ∧ t.ctl.phase = .idle ∧ t.regs.busy = false ∧
    ∃ x, t.hosts.responses = s.hosts.responses ++ [(s.ctl.requester, x)]

/-- The hosts and the requester stay, as they do between acceptance and completion. -/
structure KeepsPort (s t : State) : Prop where
  hosts : t.hosts = s.hosts
  requester : t.ctl.requester = s.ctl.requester

/-- The last step of a command before its completion (R192). -/
structure Responds (s t : State) : Prop extends KeepsPort s t where
  done : t.ctl.phase = .done

theorem CompletesWithin.mono {m n : Nat} (h : CompletesWithin m s) (le : m ≤ n) : CompletesWithin n s := by
  obtain ⟨k, t, bound, ends⟩ := h
  exact ⟨k, t, bound.trans le, ends⟩

theorem CompletesWithin.ofStep {n : Nat} (next : step s = .next t) (port : KeepsPort s t)
    (rest : CompletesWithin n t) : CompletesWithin (n + 1) s := by
  obtain ⟨k, u, bound, run, idle, free, x, responses⟩ := rest
  rw [port.hosts, port.requester] at responses
  exact ⟨k + 1, u, Nat.succ_le_succ bound, (run_succ k next).trans run, idle, free, x, responses⟩

theorem completesWithin_of_done (noInput : s.hosts.inputs = []) (p : s.ctl.phase = .done) :
    CompletesWithin 1 s :=
  ⟨1, _, le_rfl, run_succ 0 (step_done noInput p), rfl, rfl, _, rfl⟩

theorem completesWithin_of_responds (noInput : s.hosts.inputs = []) (next : step s = .next t)
    (responds : Responds s t) : CompletesWithin 2 s :=
  .ofStep next responds.toKeepsPort (completesWithin_of_done (responds.hosts ▸ noInput) responds.done)

/-! ### The steps that respond -/

theorem responds_raiseFault (c : FaultCode) (port : KeepsPort s t) : Responds s (raiseFault c t) :=
  ⟨⟨port.hosts, port.requester⟩, rfl⟩

theorem responds_onWriteAck (r : Frame) (port : KeepsPort s t) : Responds s (onWriteAck r t) := by
  rcases onWriteAck_cases r t with ⟨c, -, e⟩ | ⟨-, e⟩ <;> rw [e] <;>
    exact ⟨⟨port.hosts, port.requester⟩, rfl⟩

theorem responds_keep {op : Byte} {keep : StatusValue → State → State} (run : keepOf op = some keep)
    (v : StatusValue) (port : KeepsPort s t) : Responds s (keep v t) := by
  rcases keepOf_some run with ⟨-, rfl⟩ | ⟨-, rfl⟩ | ⟨-, rfl⟩ <;> exact ⟨⟨port.hosts, port.requester⟩, rfl⟩

theorem responds_onStatus {op : Byte} {keep : StatusValue → State → State} (run : keepOf op = some keep)
    (r : Frame) (port : KeepsPort s t) : Responds s (onStatus keep r t) := by
  rcases onStatus_cases keep r t with ⟨c, -, e⟩ | ⟨v, -, e⟩ <;> rw [e]
  · exact responds_raiseFault c port
  · exact responds_keep run v port

theorem responds_openTransport : Responds s (openTransport s) := by
  unfold openTransport
  split <;> exact ⟨⟨rfl, rfl⟩, rfl⟩

/-! ### Each request -/

/-- An exchange faults at its gates, or goes on with `t`, writes `f` and reads an answer. -/
theorem completesWithin_of_exchange {f : Frame} {n : Nat} {k : Frame → State → State}
    (noInput : s.hosts.inputs = [])
    (check : step s = .next (ifActivated (fun _ => t) s)) (port : KeepsPort s t)
    (write : step t = .next (goTo .xRx (txWrite f t)))
    (read : step (goTo .xRx (txWrite f t)) = .next (rxReadThen n k (goTo .xRx (txWrite f t))))
    (answers : ∀ {u v} r, KeepsPort u v → Responds u (k r v))
    (returns : (goTo .xRx (txWrite f t)).link.draw.hang = false) : CompletesWithin 4 s := by
  rcases ifActivated_cases (fun _ => t) s with ⟨-, e⟩ | ⟨-, -, e⟩ | ⟨-, -, e⟩ <;> rw [e] at check
  · exact (completesWithin_of_responds noInput check (responds_raiseFault _ ⟨rfl, rfl⟩)).mono (by decide)
  · exact (completesWithin_of_responds noInput check (responds_raiseFault _ ⟨rfl, rfl⟩)).mono (by decide)
  · rw [rxReadThen_of_returns k returns rfl] at read
    have noInput' : t.hosts.inputs = [] := port.hosts ▸ noInput
    exact .ofStep check port (.ofStep write ⟨rfl, rfl⟩
      (completesWithin_of_responds noInput' read (answers _ ⟨rfl, rfl⟩)))

section Requests

variable (noInput : s.hosts.inputs = []) (p : s.ctl.phase = .exec)
include noInput p

theorem completesWithin_of_open (command : decodeRequest s.latch = .ok .openCmd) : CompletesWithin 3 s := by
  have check : step s = .next (openCheck s) :=
    (step_eq_exec noInput (by simp [p]) command).trans (execOpen_exec p)
  cases opened : s.regs.sessionOpen with
  | true =>
    rw [openCheck_of_open opened] at check
    exact (completesWithin_of_responds noInput check ⟨⟨rfl, rfl⟩, rfl⟩).mono (by decide)
  | false =>
    rw [openCheck_of_closed opened] at check
    have transport : step (goTo .oOpen s) = .next (openTransport (goTo .oOpen s)) :=
      step_eq_exec (s := goTo .oOpen s) noInput (by simp) command
    exact .ofStep check ⟨rfl, rfl⟩ (completesWithin_of_responds noInput transport responds_openTransport)

theorem completesWithin_of_close (command : decodeRequest s.latch = .ok .closeCmd) : CompletesWithin 3 s := by
  have check : step s = .next (closeCheck s) :=
    (step_eq_exec noInput (by simp [p]) command).trans (execClose_exec p)
  cases opened : s.regs.sessionOpen with
  | true =>
    rw [closeCheck_of_open opened] at check
    have transport : step (goTo .oClose s) = .next (closeTransport (goTo .oClose s)) :=
      step_eq_exec (s := goTo .oClose s) noInput (by simp) command
    exact .ofStep check ⟨rfl, rfl⟩ (completesWithin_of_responds noInput transport ⟨⟨rfl, rfl⟩, rfl⟩)
  | false =>
    rw [closeCheck_of_closed opened] at check
    exact (completesWithin_of_responds noInput check ⟨⟨rfl, rfl⟩, rfl⟩).mono (by decide)

variable (returns : (s.link.transact [] (.closed 0)).draw.hang = false)
include returns

theorem completesWithin_of_setPosition (rsv : s.latch.rsv = 0#24) (op : s.latch.op = 0x04#8) :
    CompletesWithin 4 s :=
  completesWithin_of_exchange (t := goTo .xTx (buildMotion s.latch.a0 s.latch.a1 s.latch.a2 s)) noInput
    (step_motionCheck noInput rsv op p) ⟨rfl, rfl⟩ (step_motionWrite noInput rsv op rfl)
    (step_motionRead noInput rsv op rfl) responds_onWriteAck returns

theorem completesWithin_of_status {keep : StatusValue → State → State} (rsv : s.latch.rsv = 0#24)
    (run : keepOf s.latch.op = some keep) : CompletesWithin 4 s :=
  completesWithin_of_exchange (t := goTo .xTx s) noInput (step_statusCheck noInput rsv run p) ⟨rfl, rfl⟩
    (step_statusWrite noInput rsv run rfl) (step_statusRead noInput rsv run rfl) (responds_onStatus run)
    returns

end Requests

/-- Settles O57: a request that is no command faults, and each command but ACTIVATE ends in its own steps. -/
theorem commandsCompleteWithinFourSteps : Obligations.CommandsCompleteWithinFourSteps := by
  intro s _ p noInput notActivate returns
  have running : s.ctl.phase ≠ .idle := by simp [p]
  change CompletesWithin 4 s
  cases decoded : decodeRequest s.latch with
  | error e =>
    exact (completesWithin_of_responds noInput (step_illegal noInput p decoded)
      (responds_raiseFault _ ⟨rfl, rfl⟩)).mono (by decide)
  | ok i =>
    have next := step_eq_exec noInput running decoded
    obtain ⟨rsv, command⟩ := decodeRequest_ok decoded
    rcases command with ⟨-, rfl⟩ | ⟨-, rfl⟩ | ⟨op, -⟩ | ⟨op, -⟩ | ⟨op, -⟩ | ⟨op, -⟩ | ⟨op, -⟩ |
      ⟨-, rfl⟩ | ⟨-, rfl⟩
    · exact (completesWithin_of_open noInput p decoded).mono (by decide)
    · exact (completesWithin_of_close noInput p decoded).mono (by decide)
    · exact absurd notActivate (by simp [op, rsv])
    · exact completesWithin_of_setPosition noInput p returns rsv op
    · exact completesWithin_of_status noInput p returns rsv (congrArg keepOf op)
    · exact completesWithin_of_status noInput p returns rsv (congrArg keepOf op)
    · exact completesWithin_of_status noInput p returns rsv (congrArg keepOf op)
    · exact (completesWithin_of_responds noInput (next.trans (exec_crcInit p))
        ⟨⟨rfl, rfl⟩, rfl⟩).mono (by decide)
    · exact (completesWithin_of_responds noInput (next.trans (exec_crcByte _ p))
        ⟨⟨rfl, rfl⟩, rfl⟩).mono (by decide)

/-! ### GET_POSITION -/

/-- A completed status response of any header parses to its three data bytes (43_frame_parser.md R148). -/
theorem parseStatus_appendCRC (b0 b1 b2 sta b4 b5 b6 pos cur : Byte) :
    parseStatus (appendCRC [b0, b1, b2, sta, b4, b5, b6, pos, cur]) =
      .ok ⟨pos, cur.setWidth 12 * curScale, sta⟩ :=
  parseStatus_of_validate (validate_appendCRC (Nat.le_refl statusLen))

/-- Where a status command that passes its gates at EXEC stands before its read (R197–R199). -/
def awaitStatus (s : State) : State :=
  goTo .xRx (txWrite (buildStatusReadRequest s.params.statusAddr) (goTo .xTx s))

/-- The four steps of an activated status command whose response parses. -/
theorem run_statusExchange {keep : StatusValue → State → State} {r : Frame} {v : StatusValue}
    (p : s.ctl.phase = .exec) (noInput : s.hosts.inputs = []) (rsv : s.latch.rsv = 0#24)
    (run : keepOf s.latch.op = some keep) (opened : s.regs.sessionOpen = true)
    (act : s.regs.actState = .activated) (returns : (awaitStatus s).link.draw.hang = false)
    (read : (awaitStatus s).link.readBytes statusLen = r) (parsed : parseStatus r = .ok v) :
    Sys2Proof.core.run 4 s = .next (complete (keep v (rxReadReturns statusLen r (awaitStatus s)))) := by
  have check : step s = .next (goTo .xTx s) :=
    (step_statusCheck noInput rsv run p).trans (congrArg _ (ifActivated_of_activated _ opened act))
  have write : step (goTo .xTx s) = .next (awaitStatus s) := step_statusWrite noInput rsv run rfl
  have answer : step (awaitStatus s) = .next (keep v (rxReadReturns statusLen r (awaitStatus s))) := by
    rw [step_statusRead (s := awaitStatus s) noInput rsv run rfl, rxReadThen_of_returns _ returns read,
      onStatus_of_parsed parsed]
  have done : Responds (awaitStatus s) (keep v (rxReadReturns statusLen r (awaitStatus s))) :=
    responds_keep run v ⟨rfl, rfl⟩
  calc Sys2Proof.core.run 4 s
    _ = Sys2Proof.core.run 3 (goTo .xTx s) := run_succ 3 check
    _ = Sys2Proof.core.run 2 (awaitStatus s) := run_succ 2 write
    _ = Sys2Proof.core.run 1 _ := run_succ 1 answer
    _ = Sys2Proof.core.run 0 _ := run_succ 0 (step_done (done.hosts ▸ noInput) done.done)

/-- Settles O21: the read returns the first 11 bytes, and the position among them is kept. -/
theorem getPositionRunsToCompletion : Obligations.GetPositionRunsToCompletion := by
  intro s d1 d2 rest b0 b1 b2 sta b4 b5 b6 pos cur p op rsv noInput opened act oracle returns count bytes
  have first : s.link.draw = d1 := by simp [Link.draw, oracle]
  have second : (awaitStatus s).link.draw = d2 := by simp [awaitStatus, Link.draw, Link.transact, oracle]
  have pool : (awaitStatus s).link.pool = s.link.pending ++ d1.arrive ++ d2.arrive := by
    rw [Link.pool, second, ← first]
    rfl
  have read : (awaitStatus s).link.readBytes statusLen =
      appendCRC [b0, b1, b2, sta, b4, b5, b6, pos, cur] := by
    rw [← bytes, Link.readBytes, pool, second, statusLen, Nat.min_eq_left count]
  refine ⟨_, run_statusExchange p noInput rsv (congrArg keepOf op) opened act (second ▸ returns) read
    (parseStatus_appendCRC b0 b1 b2 sta b4 b5 b6 pos cur), rfl, rfl, ?_, ?_, ?_, ?_⟩
  · rw [← first, ← second]
    rfl
  · rw [← pool]
    rfl
  · rw [← first, List.append_cons]
    rfl
  · rw [← responseWord_position, ← act]
    rfl

end Sys2Proof.Machine

/-! The faults of the motion and status commands (60_exceptions.md R231, R233, R234): the gates at EXEC, and the
responses that do not validate at X_RX. -/

namespace Sys2Proof.Machine

variable {s : State}

/-! ### What the exchange commands share -/

/-- The steps of a motion or status command before its completion: gates, a write, and a read whose response
is refused as `validate` says (45_session_commands.md R196–R199). -/
structure ExchangeSteps (i : Instr) (start : State → State) (answer : Frame → State → State) : Prop where
  gates : ∀ s, s.ctl.phase = .exec → exec i s = .next (ifActivated start s)
  writes : ∀ s, s.ctl.phase = .xTx → ∃ f, exec i s = .next (goTo .xRx (txWrite f s))
  reads : ∀ s, s.ctl.phase = .xRx → exec i s = .next (rxReadThen (answerLength i) answer s)
  refuses : ∀ r c s, validate r (answerLength i) = .error c → answer r s = raiseFault c s

theorem onWriteAck_of_refused {r : Frame} {c : FaultCode} (refused : validate r ackLen = .error c) :
    onWriteAck r s = raiseFault c s := by
  simp [onWriteAck, parseWriteAck, refused]

theorem onStatus_of_refused {keep : StatusValue → State → State} {r : Frame} {c : FaultCode}
    (refused : validate r statusLen = .error c) : onStatus keep r s = raiseFault c s := by
  simp [onStatus, parseStatus, refused]

theorem exchangeSteps_setPosition (a0 a1 a2 : Word) : ExchangeSteps (.setPosition a0 a1 a2)
    (fun u => goTo .xTx (buildMotion a0 a1 a2 u)) onWriteAck where
  gates _ p := execSetPosition_exec p
  writes _ p := ⟨_, execSetPosition_xTx p⟩
  reads _ p := execSetPosition_xRx p
  refuses _ _ _ refused := onWriteAck_of_refused refused

theorem exchangeSteps_status {i : Instr} {keep : StatusValue → State → State}
    (runs : ∀ s, exec i s = statusExchange keep s) (length : answerLength i = statusLen) :
    ExchangeSteps i (goTo .xTx) (onStatus keep) where
  gates s p := (runs s).trans (statusExchange_exec p)
  writes s p := ⟨_, (runs s).trans (statusExchange_xTx p)⟩
  reads s p := by rw [runs, statusExchange_xRx p, length]
  refuses _ _ _ refused := onStatus_of_refused (length ▸ refused)

theorem exists_exchangeSteps {i : Instr} (exchange : isExchange i = true) :
    ∃ start answer, ExchangeSteps i start answer := by
  rcases isExchange_cases exchange with ⟨a0, a1, a2, rfl⟩ | rfl | rfl | rfl
  · exact ⟨_, _, exchangeSteps_setPosition a0 a1 a2⟩
  · exact ⟨_, _, exchangeSteps_status (keep := keepPosition) (fun _ => rfl) rfl⟩
  · exact ⟨_, _, exchangeSteps_status (keep := keepCurrent) (fun _ => rfl) rfl⟩
  · exact ⟨_, _, exchangeSteps_status (keep := keepStatus) (fun _ => rfl) rfl⟩

/-! ### The gates -/

theorem ifActivated_of_closed (k : State → State) (closed : s.regs.sessionOpen = false) :
    ifActivated k s = raiseFault .sessionClosed s :=
  if_pos closed

theorem ifActivated_of_not_activated (k : State → State) (opened : s.regs.sessionOpen = true)
    (act : s.regs.actState ≠ .activated) : ifActivated k s = raiseFault .notActivated s := by
  simp [ifActivated, opened, act]

theorem execActivate_of_closed (p : s.ctl.phase = .exec) (closed : s.regs.sessionOpen = false) :
    execActivate s = .next (raiseFault .sessionClosed s) := by
  simp [execActivate, startActivation, p, closed]

/-- Settles O31: ACTIVATE has one gate, the motion and status commands both. -/
theorem gatesFaultInOrder : Obligations.GatesFaultInOrder := by
  intro s p
  refine ⟨execActivate_of_closed p, fun i exchange => ?_⟩
  obtain ⟨start, answer, steps⟩ := exists_exchangeSteps exchange
  exact ⟨fun closed => (steps.gates s p).trans (congrArg _ (ifActivated_of_closed start closed)),
    fun opened act => (steps.gates s p).trans (congrArg _ (ifActivated_of_not_activated start opened act))⟩

/-! ### The responses -/

/-- A refused response ends the exchange with its fault, after what the read did. -/
theorem ExchangeSteps.exec_of_refused {i : Instr} {start : State → State} {answer : Frame → State → State}
    {r : Frame} {c : FaultCode} (steps : ExchangeSteps i start answer) (p : s.ctl.phase = .xRx)
    (returns : s.link.draw.hang = false) (read : s.link.readBytes (answerLength i) = r)
    (refused : validate r (answerLength i) = .error c) :
    exec i s = .next (raiseFault c (rxReadReturns (answerLength i) r s)) := by
  rw [steps.reads s p, rxReadThen_of_returns answer returns read, steps.refuses r c _ refused]

/-- Settles O32: `validate` refuses the short response and the corrupt one. -/
theorem badResponsesFault : Obligations.BadResponsesFault := by
  intro s i r p returns exchange read
  obtain ⟨start, answer, steps⟩ := exists_exchangeSteps exchange
  exact ⟨fun short => steps.exec_of_refused p returns read (validate_of_short short),
    fun long corrupt => steps.exec_of_refused p returns read (validate_of_corrupt long corrupt)⟩

end Sys2Proof.Machine

/-! Every state that meets the invariant has a next state (45_session_commands.md R191, 60_exceptions.md R237):
the request that its control point runs has a step there. -/

namespace Sys2Proof.Machine

variable {s : State}

/-! ### The request at the control point -/

/-- The running request asks for what its opcode does. -/
theorem decodeRequest_of_runs {op : Byte} (run : s.runs op = true) :
    decodeRequest s.latch = decodeRequest ⟨op, 0#24, s.latch.a0, s.latch.a1, s.latch.a2⟩ := by
  simp only [State.runs, Bool.and_eq_true, beq_iff_eq] at run
  obtain ⟨rsv, op⟩ := run
  rw [← rsv, ← op]

theorem State.Handshakes.decodes (h : s.Handshakes) : decodeRequest s.latch = .ok .activate :=
  decodeRequest_of_runs h.run

theorem State.Exchanges.decodes (h : s.Exchanges) :
    ∃ i, isExchange i = true ∧ decodeRequest s.latch = .ok i := by
  rcases h.run with run | run | run | run
  · exact ⟨.setPosition s.latch.a0 s.latch.a1 s.latch.a2, rfl, decodeRequest_of_runs run⟩
  · exact ⟨.getPosition, rfl, decodeRequest_of_runs run⟩
  · exact ⟨.getCurrent, rfl, decodeRequest_of_runs run⟩
  · exact ⟨.getStatus, rfl, decodeRequest_of_runs run⟩

/-! ### Its step there -/

/-- Every command has a step at EXEC. -/
theorem exists_exec_next {i : Instr} (command : isCommand i = true) (p : s.ctl.phase = .exec) :
    ∃ t, exec i s = .next t := by
  cases i with
  | openCmd => exact ⟨_, execOpen_exec p⟩
  | closeCmd => exact ⟨_, execClose_exec p⟩
  | activate => exact ⟨startActivation s, by simp [exec, execActivate, p]⟩
  | setPosition => exact ⟨_, execSetPosition_exec p⟩
  | getPosition => exact ⟨_, statusExchange_exec p⟩
  | getCurrent => exact ⟨_, statusExchange_exec p⟩
  | getStatus => exact ⟨_, statusExchange_exec p⟩
  | crcInit => exact ⟨_, exec_crcInit p⟩
  | crcByte b => exact ⟨_, exec_crcByte b p⟩
  | _ => exact nomatch command

/-- Every request has a step at EXEC and at DONE, a command or not. -/
theorem exists_coreStep_exec_done (p : s.ctl.phase = .exec ∨ s.ctl.phase = .done) : ∃ t, coreStep s = .next t := by
  have running : s.ctl.phase ≠ .idle := by rcases p with p | p <;> simp [p]
  cases decoded : decodeRequest s.latch with
  | ok i =>
    have command := isCommand_of_decodeRequest decoded
    rw [coreStep_running running decoded]
    exact p.elim (exists_exec_next command) fun done => ⟨_, exec_done command done⟩
  | error e =>
    have illegal : coreStep s = runIllegal s := by simp [coreStep, running, decoded]
    rw [illegal]
    rcases p with p | p
    · exact ⟨raiseFault .illegalCommand s, by simp [runIllegal, p]⟩
    · exact ⟨complete s, by simp [runIllegal, p]⟩

/-- An exchange has a step at each of its control points. -/
theorem exists_coreStep_exchange (p : s.ctl.phase = .xTx ∨ s.ctl.phase = .xRx) (h : s.Exchanges) :
    ∃ t, coreStep s = .next t := by
  obtain ⟨i, exchange, decoded⟩ := h.decodes
  obtain ⟨start, answer, steps⟩ := exists_exchangeSteps exchange
  rw [coreStep_running (by rcases p with p | p <;> simp [p]) decoded]
  rcases p with p | p
  · obtain ⟨f, next⟩ := steps.writes s p
    exact ⟨_, next⟩
  · exact ⟨_, steps.reads s p⟩

/-- The handshake has a step at each of its control points. -/
theorem exists_execActivate_inActivation (inside : s.ctl.phase.inActivation = true) :
    ∃ t, execActivate s = .next t := by
  cases p : s.ctl.phase with
  | aClr => exact ⟨_, execActivate_aClr p⟩
  | aSet1 => exact ⟨_, execActivate_aSet1 p⟩
  | aAct => exact ⟨_, execActivate_aAct p⟩
  | aSet2 => exact ⟨_, execActivate_aSet2 p⟩
  | aDisc => exact ⟨_, execActivate_aDisc p⟩
  | aPtx => exact ⟨_, execActivate_aPtx p⟩
  | aPrx => exact ⟨rxReadThen statusLen onPoll s, by simp [execActivate, p]⟩
  | aPwait => exact ⟨_, execActivate_aPwait p⟩
  | _ => simp [p, Phase.inActivation] at inside

theorem exists_coreStep_handshake (inside : s.ctl.phase.inActivation = true) (h : s.Inv) :
    ∃ t, coreStep s = .next t := by
  obtain ⟨-, run, -⟩ := (inv_handshake_iff inside).mp h
  rw [coreStep_running (fun idle => by simp [idle, Phase.inActivation] at inside) run.decodes]
  exact exists_execActivate_inActivation inside

theorem exists_coreStep_of_inv (h : s.Inv) : ∃ t, coreStep s = .next t := by
  cases p : s.ctl.phase with
  | idle => exact ⟨_, if_pos p⟩
  | exec => exact exists_coreStep_exec_done (.inl p)
  | done => exact exists_coreStep_exec_done (.inr p)
  | xTx =>
    obtain ⟨-, run, -⟩ := (inv_xTx_iff p).mp h
    exact exists_coreStep_exchange (.inl p) run
  | xRx =>
    obtain ⟨-, run, -⟩ := (inv_xRx_iff p).mp h
    exact exists_coreStep_exchange (.inr p) run
  | oOpen =>
    obtain ⟨-, ⟨-, run⟩, -⟩ := (inv_oOpen_iff p).mp h
    exact ⟨_, (coreStep_running (i := .openCmd) (by simp [p]) (decodeRequest_of_runs run)).trans
      (execOpen_oOpen p)⟩
  | oClose =>
    obtain ⟨-, ⟨-, run⟩, -⟩ := (inv_oClose_iff p).mp h
    exact ⟨_, (coreStep_running (i := .closeCmd) (by simp [p]) (decodeRequest_of_runs run)).trans
      (execClose_oClose p)⟩
  | _ => exact exists_coreStep_handshake (by simp [p, Phase.inActivation]) h

/-- Settles O55: the core has a step, and the moves of the other agents always have one. -/
theorem theMachineNeverStops : Obligations.TheMachineNeverStops := by
  intro s h
  cases inputs : s.hosts.inputs with
  | nil =>
    obtain ⟨t, next⟩ := exists_coreStep_of_inv h
    exact ⟨t, by simpa [step, inputs] using next⟩
  | cons e es =>
    rw [step_of_input inputs]
    cases e with
    | core => exact exists_coreStep_of_inv (s := s.withInputs es) h
    | _ => exact ⟨_, rfl⟩

end Sys2Proof.Machine

/-! A host's name is invisible to commands (60_exceptions.md R240, 45_session_commands.md R204): the completion
step sends the response to REQUESTER, and every other operation ignores it. -/

namespace Sys2Proof.Machine

/-- The state with another REQUESTER. -/
def setRequester (x : Option HostId) (s : State) : State :=
  { s with ctl := { s.ctl with requester := x } }

@[simp] theorem setRequester_phase (x : Option HostId) (s : State) :
    (setRequester x s).ctl.phase = s.ctl.phase := rfl

@[simp] theorem setRequester_latch (x : Option HostId) (s : State) : (setRequester x s).latch = s.latch := rfl

/-- The state with another REQUESTER, and the responses that `s` does not have yet sent to it. -/
def redirect (x : Option HostId) (s t : State) : State :=
  { t with
    ctl := { t.ctl with requester := x }
    hosts := { t.hosts with responses :=
      s.hosts.responses ++ (t.hosts.responses.drop s.hosts.responses.length).map fun p => (x, p.2) } }

/-- Without a response in between, only REQUESTER is another. -/
theorem redirect_of_kept (x : Option HostId) {s t : State} (kept : t.hosts.responses = s.hosts.responses) :
    redirect x s t = setRequester x t := by
  simp [redirect, setRequester, ← kept]

/-- The completion step answers REQUESTER (R192). -/
theorem complete_setRequester (x : Option HostId) (s : State) :
    complete (setRequester x s) = redirect x s (complete s) := by
  simp [redirect, setRequester, complete]

/-! ### The operations that ignore REQUESTER -/

/-- The operation neither depends on REQUESTER nor writes it, and delivers no response. -/
def IgnoresRequester (f : State → State) : Prop :=
  ∀ x s, f (setRequester x s) = setRequester x (f s) ∧ (f s).hosts.responses = s.hosts.responses

/-- A choice ignores REQUESTER when its test and both its branches do. -/
theorem IgnoresRequester.ite {f g : State → State} {p : State → Prop} [DecidablePred p]
    (unseen : ∀ x s, p (setRequester x s) ↔ p s) (hf : IgnoresRequester f) (hg : IgnoresRequester g) :
    IgnoresRequester fun s => if p s then f s else g s := by
  intro x s
  by_cases h : p s
  · simpa only [unseen, if_pos h] using hf x s
  · simpa only [unseen, if_neg h] using hg x s

theorem ignoresRequester_openCheck : IgnoresRequester openCheck :=
  .ite (fun _ _ => Iff.rfl) (fun _ _ => ⟨rfl, rfl⟩) (fun _ _ => ⟨rfl, rfl⟩)

theorem ignoresRequester_openTransport : IgnoresRequester openTransport :=
  .ite (fun _ _ => Iff.rfl) (fun _ _ => ⟨rfl, rfl⟩) (fun _ _ => ⟨rfl, rfl⟩)

theorem ignoresRequester_closeCheck : IgnoresRequester closeCheck :=
  .ite (fun _ _ => Iff.rfl) (fun _ _ => ⟨rfl, rfl⟩) (fun _ _ => ⟨rfl, rfl⟩)

theorem ignoresRequester_startActivation : IgnoresRequester startActivation :=
  .ite (fun _ _ => Iff.rfl) (fun _ _ => ⟨rfl, rfl⟩) (fun _ _ => ⟨rfl, rfl⟩)

theorem ignoresRequester_onPoll (r : Frame) : IgnoresRequester (onPoll r) :=
  .ite (fun _ _ => Iff.rfl) (fun _ _ => ⟨rfl, rfl⟩)
    (.ite (fun _ _ => Iff.rfl) (fun _ _ => ⟨rfl, rfl⟩) (fun _ _ => ⟨rfl, rfl⟩))

theorem ignoresRequester_afterPollWait : IgnoresRequester afterPollWait :=
  .ite (fun _ _ => Iff.rfl) (fun _ _ => ⟨rfl, rfl⟩) (fun _ _ => ⟨rfl, rfl⟩)

theorem ignoresRequester_onWriteAck (r : Frame) : IgnoresRequester (onWriteAck r) := by
  intro x s
  unfold onWriteAck
  split <;> exact ⟨rfl, rfl⟩

theorem ignoresRequester_onStatus {op : Byte} {keep : StatusValue → State → State}
    (run : keepOf op = some keep) (r : Frame) : IgnoresRequester (onStatus keep r) := by
  intro x s
  unfold onStatus
  split
  · exact ⟨rfl, rfl⟩
  · rcases keepOf_some run with ⟨-, rfl⟩ | ⟨-, rfl⟩ | ⟨-, rfl⟩ <;> exact ⟨rfl, rfl⟩

theorem IgnoresRequester.ifActivated {k : State → State} (h : IgnoresRequester k) :
    IgnoresRequester (ifActivated k) :=
  .ite (fun _ _ => Iff.rfl) (fun _ _ => ⟨rfl, rfl⟩) (.ite (fun _ _ => Iff.rfl) (fun _ _ => ⟨rfl, rfl⟩) h)

theorem IgnoresRequester.rxReadThen {k : Frame → State → State} (h : ∀ r, IgnoresRequester (k r)) (n : Nat) :
    IgnoresRequester (rxReadThen n k) :=
  .ite (fun _ _ => Iff.rfl) (fun _ _ => ⟨rfl, rfl⟩)
    fun x s => h (s.link.readBytes n) x (rxReadReturns n (s.link.readBytes n) s)

/-! ### The meanings -/

/-- Another REQUESTER changes only where the step's response goes. -/
def StepRedirects (f : State → Host.Outcome State Fault Refusal) : Prop :=
  ∀ x s, f (setRequester x s) = mapNext (redirect x s) (f s)

/-- A next state that an operation ignoring REQUESTER answers. -/
theorem next_of_ignores {x : Option HostId} {s t t' : State}
    (ignores : t' = setRequester x t ∧ t.hosts.responses = s.hosts.responses) :
    Host.Outcome.next t' = mapNext (redirect x s) (.next t) := by
  obtain ⟨rfl, kept⟩ := ignores
  rw [mapNext, redirect_of_kept x kept]

theorem next_complete (x : Option HostId) (s : State) :
    Host.Outcome.next (complete (setRequester x s)) = mapNext (redirect x s) (.next (complete s)) :=
  congrArg _ (complete_setRequester x s)

theorem stepRedirects_execOpen : StepRedirects execOpen := by
  intro x s
  simp only [execOpen, setRequester_phase]
  split
  · exact next_of_ignores (ignoresRequester_openCheck x s)
  · exact next_of_ignores (ignoresRequester_openTransport x s)
  · exact next_complete x s
  · rfl

theorem stepRedirects_execClose : StepRedirects execClose := by
  intro x s
  simp only [execClose, setRequester_phase]
  split
  · exact next_of_ignores (ignoresRequester_closeCheck x s)
  · exact next_of_ignores ⟨rfl, rfl⟩
  · exact next_complete x s
  · rfl

theorem stepRedirects_execActivate : StepRedirects execActivate := by
  intro x s
  simp only [execActivate, setRequester_phase]
  split
  · exact next_of_ignores (ignoresRequester_startActivation x s)
  · exact next_of_ignores ⟨rfl, rfl⟩
  · exact next_of_ignores ⟨rfl, rfl⟩
  · exact next_of_ignores ⟨rfl, rfl⟩
  · exact next_of_ignores ⟨rfl, rfl⟩
  · exact next_of_ignores ⟨rfl, rfl⟩
  · exact next_of_ignores ⟨rfl, rfl⟩
  · exact next_of_ignores (IgnoresRequester.rxReadThen ignoresRequester_onPoll statusLen x s)
  · exact next_of_ignores (ignoresRequester_afterPollWait x (waitTicks (pollWait s) s))
  · exact next_complete x s
  · rfl

theorem stepRedirects_execSetPosition (a0 a1 a2 : Word) : StepRedirects (execSetPosition a0 a1 a2) := by
  intro x s
  have build : IgnoresRequester fun u => goTo .xTx (buildMotion a0 a1 a2 u) := fun _ _ => ⟨rfl, rfl⟩
  simp only [execSetPosition, setRequester_phase]
  split
  · exact next_of_ignores (build.ifActivated x s)
  · exact next_of_ignores ⟨rfl, rfl⟩
  · exact next_of_ignores (IgnoresRequester.rxReadThen ignoresRequester_onWriteAck ackLen x s)
  · exact next_complete x s
  · rfl

theorem stepRedirects_statusExchange {op : Byte} {keep : StatusValue → State → State}
    (run : keepOf op = some keep) : StepRedirects (statusExchange keep) := by
  intro x s
  have start : IgnoresRequester (goTo .xTx) := fun _ _ => ⟨rfl, rfl⟩
  simp only [statusExchange, setRequester_phase]
  split
  · exact next_of_ignores (start.ifActivated x s)
  · exact next_of_ignores ⟨rfl, rfl⟩
  · exact next_of_ignores (IgnoresRequester.rxReadThen (ignoresRequester_onStatus run) statusLen x s)
  · exact next_complete x s
  · rfl

theorem stepRedirects_execCrcInit : StepRedirects execCrcInit := by
  intro x s
  simp only [execCrcInit, setRequester_phase]
  split
  · exact next_of_ignores ⟨rfl, rfl⟩
  · exact next_complete x s
  · rfl

theorem stepRedirects_execCrcByte (b : Byte) : StepRedirects (execCrcByte b) := by
  intro x s
  simp only [execCrcByte, setRequester_phase]
  split
  · exact next_of_ignores ⟨rfl, rfl⟩
  · exact next_complete x s
  · rfl

theorem stepRedirects_execFrameClear : StepRedirects execFrameClear := by
  intro x s
  simp only [execFrameClear, setRequester_phase]
  split
  · exact next_of_ignores ⟨rfl, rfl⟩
  · rfl

theorem stepRedirects_execFrameActivate : StepRedirects execFrameActivate := by
  intro x s
  simp only [execFrameActivate, setRequester_phase]
  split
  · exact next_of_ignores ⟨rfl, rfl⟩
  · rfl

theorem stepRedirects_execFrameMotion (p v f : Byte) (crc : Half) :
    StepRedirects (execFrameMotion p v f crc) := by
  intro x s
  simp only [execFrameMotion, setRequester_phase]
  split
  · by_cases op : s.latch.op = 0x04#8
    · simp only [setRequester_latch, op, ↓reduceIte]
      exact next_of_ignores ⟨rfl, rfl⟩
    · simp only [setRequester_latch, op, ↓reduceIte]
      rfl
  · rfl

theorem stepRedirects_execFrameStatusRead (addr crc : Half) :
    StepRedirects (execFrameStatusRead addr crc) := by
  intro x s
  simp only [execFrameStatusRead, setRequester_phase, setRequester_latch]
  split
  · exact next_of_ignores ⟨rfl, rfl⟩
  · split
    · exact next_of_ignores ⟨rfl, rfl⟩
    · rfl
  · rfl

theorem stepRedirects_execFrameWriteAck (bytes : Frame) : StepRedirects (execFrameWriteAck bytes) := by
  intro x s
  simp only [execFrameWriteAck, setRequester_phase]
  split
  · by_cases op : s.latch.op = 0x04#8
    · simp only [setRequester_latch, op, ↓reduceIte]
      exact next_of_ignores (ignoresRequester_onWriteAck bytes x (rxReadReturns ackLen bytes s))
    · simp only [setRequester_latch, op, ↓reduceIte]
      rfl
  · rfl

theorem stepRedirects_execFrameStatusResponse (bytes : Frame) :
    StepRedirects (execFrameStatusResponse bytes) := by
  intro x s
  simp only [execFrameStatusResponse, setRequester_phase, setRequester_latch]
  split
  · exact next_of_ignores (ignoresRequester_onPoll bytes x (rxReadReturns statusLen bytes s))
  · split
    · exact next_of_ignores (ignoresRequester_onStatus ‹_› bytes x (rxReadReturns statusLen bytes s))
    · rfl
  · rfl

/-- Settles O47: each meaning redirects its response, if it delivers one. -/
theorem hostIdentityIsInvisible : Obligations.HostIdentityIsInvisible := by
  intro i x s
  cases i with
  | openCmd => exact stepRedirects_execOpen x s
  | closeCmd => exact stepRedirects_execClose x s
  | activate => exact stepRedirects_execActivate x s
  | setPosition a0 a1 a2 => exact stepRedirects_execSetPosition a0 a1 a2 x s
  | getPosition => exact stepRedirects_statusExchange (op := 0x05#8) rfl x s
  | getCurrent => exact stepRedirects_statusExchange (op := 0x06#8) rfl x s
  | getStatus => exact stepRedirects_statusExchange (op := 0x07#8) rfl x s
  | crcInit => exact stepRedirects_execCrcInit x s
  | crcByte b => exact stepRedirects_execCrcByte b x s
  | frameClear => exact stepRedirects_execFrameClear x s
  | frameActivate => exact stepRedirects_execFrameActivate x s
  | frameMotion p v f crc => exact stepRedirects_execFrameMotion p v f crc x s
  | frameStatusRead addr crc => exact stepRedirects_execFrameStatusRead addr crc x s
  | frameWriteAck bytes => exact stepRedirects_execFrameWriteAck bytes x s
  | frameStatusResponse bytes => exact stepRedirects_execFrameStatusResponse bytes x s

end Sys2Proof.Machine

/-! Reset (70_reset_and_hazards.md R260–R263, R265, R268): the values it leaves, and what the reset input makes of
the transport's record; what no instruction writes, and the read that never returns. -/

namespace Sys2Proof.Machine

variable {s t : State}

/-! ### The reset values -/

/-- Settles O45: the table of R260, entry by entry. -/
theorem resetLeavesTheResetValues : Obligations.ResetLeavesTheResetValues :=
  ⟨rfl, rfl, rfl, rfl, rfl, rfl, rfl⟩

/-- Without events, faults and held requests the steady part of the invariant holds. -/
theorem steady_reset : State.reset.Steady where
  closedReset _ := rfl
  faults := ⟨BitVec.getLsbD_zero, fun fault => absurd rfl fault⟩
  results := ⟨rfl, Nat.zero_le _, rfl, nofun⟩
  txLength := Nat.zero_le _
  rxLength := Nat.zero_le _
  rxLen := rfl
  held := .nil
  built := rfl
  owned := rfl
  exchanged := rfl

/-- Settles O53: the reset core is idle and free, with no activation running. -/
theorem resetMeetsTheInvariant : Obligations.ResetMeetsTheInvariant :=
  (inv_idle_iff rfl).mpr ⟨steady_reset, rfl, nofun⟩

/-! ### What the transport sees of the reset input -/

/-- A reset adds a first part of the frame being written, if a byte of it was sent, and then one `TClose` if a
session was open (R261, R262). -/
theorem exists_part_resetTrace (sent : Nat) (s : State) :
    ∃ part, resetTrace sent s = part ++ (if s.regs.sessionOpen then [.closed s.ctl.now] else []) ∧
      (sent = 0 ∨ frameInProgress s = none → part = []) ∧
      (∀ f, sent ≠ 0 → frameInProgress s = some f → part = [.cut (f.take sent) s.ctl.now]) := by
  refine ⟨_, rfl, ?_, ?_⟩
  · rintro (noByte | noFrame)
    · cases frameInProgress s <;> simp [noByte]
    · simp [noFrame]
  · intro f someByte sending
    simp [sending, someByte]

/-! ### The frame in progress is the one the core writes -/

/-- Outside A_CLR, A_ACT, A_PTX and X_TX no frame is being written. -/
theorem frameInProgress_eq_none {p : Phase} (point : s.ctl.phase = p)
    (noWrite : p ≠ .aClr ∧ p ≠ .aAct ∧ p ≠ .aPtx ∧ p ≠ .xTx) : frameInProgress s = none := by
  unfold frameInProgress
  split <;> simp_all

/-- From `s` to `t` the transport sees a write exactly of the frame in progress, if there is one. -/
def WritesFrameInProgress (s t : State) : Prop :=
  ∀ f, frameInProgress s = some f ↔ t.link.trace = s.link.trace ++ [.wrote f s.ctl.now]

theorem WritesFrameInProgress.ofWrite {f : Frame} (sending : frameInProgress s = some f)
    (trace : t.link.trace = s.link.trace ++ [.wrote f s.ctl.now]) : WritesFrameInProgress s t := by
  intro g
  simp [sending, trace]

theorem WritesFrameInProgress.ofSilent (noFrame : frameInProgress s = none)
    (trace : t.link.trace = s.link.trace) : WritesFrameInProgress s t := by
  intro g
  simp [noFrame, trace]

theorem WritesFrameInProgress.ofOther {e : TransportEvent} (noFrame : frameInProgress s = none)
    (trace : t.link.trace = s.link.trace ++ [e]) (noWrite : ∀ f time, e ≠ .wrote f time) :
    WritesFrameInProgress s t := by
  intro g
  simp [noFrame, trace, noWrite]

theorem WritesFrameInProgress.ofRead (noFrame : frameInProgress s = none) (n : Nat)
    {k : Frame → State → State} (keeps : ∀ r u, (k r u).link = u.link) :
    WritesFrameInProgress s (rxReadThen n k s) := by
  rcases rxReadThen_cases n k s with ⟨-, e⟩ | ⟨-, e⟩ <;> rw [e]
  · exact .ofSilent noFrame rfl
  · exact .ofOther noFrame (congrArg Link.trace (keeps _ _)) nofun

/-- Only the steps at A_CLR, A_ACT, A_PTX and X_TX write, each its frame (42_frame_builder.md R129–R132). -/
theorem CoreMove.writesFrameInProgress (m : CoreMove s t) : WritesFrameInProgress s t := by
  cases m with
  | sendClear p | sendActivate p | sendPoll p => exact .ofWrite (by simp [frameInProgress, p]) rfl
  | sendMotion p run => exact .ofWrite (by simp [frameInProgress, p, op_of_runs run]) rfl
  | sendStatus p keep run rsv =>
    obtain ⟨noMotion, -⟩ := runs_of_keepOf rsv run
    exact .ofWrite (by simp [frameInProgress, p, noMotion]) rfl
  | accept p => exact .ofSilent (frameInProgress_eq_none p (by decide)) (by rw [acceptNext_link])
  | openCheck p => exact .ofSilent (frameInProgress_eq_none p (by decide)) (by rw [openCheck_link])
  | closeCheck p => exact .ofSilent (frameInProgress_eq_none p (by decide)) (by rw [closeCheck_link])
  | pollWait p =>
    exact .ofSilent (frameInProgress_eq_none p (by decide)) (by rw [afterPollWait_link, waitTicks_link])
  | complete p | illegal p | sessionClosed p | notActivated p | startActivation p | settleClear p
  | settleActivate p | buildMotion p | startStatus p | crcInit p | crcByte p =>
    exact .ofSilent (frameInProgress_eq_none p (by decide)) rfl
  | openTransport p =>
    exact .ofOther (frameInProgress_eq_none p (by decide)) (congrArg Link.trace (openTransport_link s)) nofun
  | closeTransport p | discard p => exact .ofOther (frameInProgress_eq_none p (by decide)) rfl nofun
  | readPoll p => exact .ofRead (frameInProgress_eq_none p (by decide)) statusLen onPoll_link
  | readAck p => exact .ofRead (frameInProgress_eq_none p (by decide)) ackLen onWriteAck_link
  | readStatus p keep run => exact .ofRead (frameInProgress_eq_none p (by decide)) statusLen (onStatus_link run)

/-- In a state that meets the invariant the frame in progress is the one the core's next step writes. -/
theorem frameInProgress_iff_of_inv (h : s.Inv) (f : Frame) : frameInProgress s = some f ↔
    ∃ u, coreStep s = .next u ∧ u.link.trace = s.link.trace ++ [.wrote f s.ctl.now] := by
  constructor
  · intro sending
    obtain ⟨u, next⟩ := exists_coreStep_of_inv h
    exact ⟨u, next, ((coreStep_move next).writesFrameInProgress f).mp sending⟩
  · rintro ⟨u, next, wrote⟩
    exact ((coreStep_move next).writesFrameInProgress f).mpr wrote

/-- Settles O46: the reset input is the move `resetInput`, and the frame it cuts off the core's next write. -/
theorem resetInputDropsEverything : Obligations.ResetInputDropsEverything := by
  intro s sent es inputs
  refine ⟨⟨resetInput sent (s.withInputs es), step_of_input inputs, rfl, rfl, rfl, rfl, rfl, ?_⟩,
    frameInProgress_iff_of_inv⟩
  obtain ⟨part, trace, noPart, cutPart⟩ := exists_part_resetTrace sent (s.withInputs es)
  refine ⟨part, ?_, noPart, cutPart⟩
  rw [resetInput_link, trace, ← List.append_assoc]
  rfl

/-! ### What no instruction writes -/

/-- The parameters, the latches, LAST_OP, REQUESTER and the host side (R265, 10_state.md R21, R35, R38). -/
def State.port (s : State) : Params × Request × Byte × Option HostId × Hosts :=
  (s.params, s.latch, s.regs.lastOp, s.ctl.requester, s.hosts)

theorem port_ifActivated {k : State → State} (keeps : (k s).port = s.port) :
    (ifActivated k s).port = s.port := by
  rcases ifActivated_cases k s with ⟨-, e⟩ | ⟨-, -, e⟩ | ⟨-, -, e⟩ <;> rw [e]
  · rfl
  · rfl
  · exact keeps

theorem port_rxReadThen (n : Nat) {k : Frame → State → State} (keeps : ∀ r u, (k r u).port = u.port) :
    (rxReadThen n k s).port = s.port := by
  rcases rxReadThen_cases n k s with ⟨-, e⟩ | ⟨-, e⟩ <;> rw [e]
  exact keeps _ _

theorem port_openCheck (s : State) : (openCheck s).port = s.port := by
  unfold openCheck
  split <;> rfl

theorem port_openTransport (s : State) : (openTransport s).port = s.port := by
  unfold openTransport
  split <;> rfl

theorem port_closeCheck (s : State) : (closeCheck s).port = s.port := by
  unfold closeCheck
  split <;> rfl

theorem port_startActivation (s : State) : (startActivation s).port = s.port := by
  unfold startActivation
  split <;> rfl

theorem port_onPoll (r : Frame) (s : State) : (onPoll r s).port = s.port := by
  rcases onPoll_cases r s with ⟨-, e⟩ | ⟨-, -, e⟩ | ⟨-, -, e⟩ <;> rw [e] <;> rfl

theorem port_afterPollWait (s : State) : (afterPollWait s).port = s.port := by
  rcases afterPollWait_cases s with ⟨-, e⟩ | ⟨-, e⟩ <;> rw [e] <;> rfl

theorem port_onWriteAck (r : Frame) (s : State) : (onWriteAck r s).port = s.port := by
  rcases onWriteAck_cases r s with ⟨c, -, e⟩ | ⟨-, e⟩ <;> rw [e] <;> rfl

theorem port_onStatus {op : Byte} {keep : StatusValue → State → State} (run : keepOf op = some keep)
    (r : Frame) (s : State) : (onStatus keep r s).port = s.port := by
  rcases onStatus_cases keep r s with ⟨c, -, e⟩ | ⟨v, -, e⟩ <;> rw [e]
  · rfl
  · rcases keepOf_some run with ⟨-, rfl⟩ | ⟨-, rfl⟩ | ⟨-, rfl⟩ <;> rfl

/-- The step keeps the port, or it is the completion. -/
def KeepsPortOrCompletes (s t : State) : Prop :=
  t.port = s.port ∨ s.ctl.phase = .done ∧ t = complete s

theorem execActivate_port (next : execActivate s = .next t) : KeepsPortOrCompletes s t := by
  rcases execActivate_next next with ⟨-, rfl⟩ | ⟨-, rfl⟩ | ⟨-, rfl⟩ | ⟨-, rfl⟩ | ⟨-, rfl⟩ | ⟨-, rfl⟩ |
    ⟨-, rfl⟩ | ⟨-, rfl⟩ | ⟨-, rfl⟩ | completes
  · exact .inl (port_startActivation s)
  · exact .inl rfl
  · exact .inl rfl
  · exact .inl rfl
  · exact .inl rfl
  · exact .inl rfl
  · exact .inl rfl
  · exact .inl (port_rxReadThen statusLen port_onPoll)
  · exact .inl (port_afterPollWait (waitTicks (pollWait s) s))
  · exact .inr completes

theorem execSetPosition_port {a0 a1 a2 : Word} (next : execSetPosition a0 a1 a2 s = .next t) :
    KeepsPortOrCompletes s t := by
  rcases execSetPosition_next next with ⟨-, rfl⟩ | ⟨-, rfl⟩ | ⟨-, rfl⟩ | completes
  · exact .inl (port_ifActivated rfl)
  · exact .inl rfl
  · exact .inl (port_rxReadThen ackLen port_onWriteAck)
  · exact .inr completes

theorem statusExchange_port {op : Byte} {keep : StatusValue → State → State} (run : keepOf op = some keep)
    (next : statusExchange keep s = .next t) : KeepsPortOrCompletes s t := by
  rcases statusExchange_next next with ⟨-, rfl⟩ | ⟨-, rfl⟩ | ⟨-, rfl⟩ | completes
  · exact .inl (port_ifActivated rfl)
  · exact .inl rfl
  · exact .inl (port_rxReadThen statusLen (port_onStatus run))
  · exact .inr completes

/-- Every instruction keeps the port but for the response of its completion. -/
theorem exec_port {i : Instr} (next : exec i s = .next t) : KeepsPortOrCompletes s t := by
  cases i with
  | openCmd =>
    rcases execOpen_next next with ⟨-, rfl⟩ | ⟨-, rfl⟩ | completes
    · exact .inl (port_openCheck s)
    · exact .inl (port_openTransport s)
    · exact .inr completes
  | closeCmd =>
    rcases execClose_next next with ⟨-, rfl⟩ | ⟨-, rfl⟩ | completes
    · exact .inl (port_closeCheck s)
    · exact .inl rfl
    · exact .inr completes
  | activate => exact execActivate_port next
  | setPosition => exact execSetPosition_port next
  | getPosition => exact statusExchange_port (op := 0x05#8) rfl next
  | getCurrent => exact statusExchange_port (op := 0x06#8) rfl next
  | getStatus => exact statusExchange_port (op := 0x07#8) rfl next
  | crcInit =>
    rcases execCrcInit_next next with ⟨-, rfl⟩ | completes
    · exact .inl rfl
    · exact .inr completes
  | crcByte =>
    rcases execCrcByte_next next with ⟨-, rfl⟩ | completes
    · exact .inl rfl
    · exact .inr completes
  | frameClear =>
    obtain ⟨-, rfl⟩ := execFrameClear_next next
    exact .inl rfl
  | frameActivate =>
    obtain ⟨-, rfl⟩ := execFrameActivate_next next
    exact .inl rfl
  | frameMotion =>
    obtain ⟨-, -, rfl⟩ := execFrameMotion_next next
    exact .inl rfl
  | frameStatusRead =>
    rcases execFrameStatusRead_next next with ⟨-, rfl⟩ | ⟨-, -, rfl⟩ <;> exact .inl rfl
  | frameWriteAck bytes =>
    obtain ⟨-, -, rfl⟩ := execFrameWriteAck_next next
    exact .inl (port_onWriteAck bytes _)
  | frameStatusResponse bytes =>
    rcases execFrameStatusResponse_next next with ⟨-, rfl⟩ | ⟨-, keep, run, rfl⟩
    · exact .inl (port_onPoll bytes _)
    · exact .inl (port_onStatus run bytes _)

/-- Settles O36: the port is kept, or the step is the completion, which adds a response. -/
theorem instructionsKeepThePort : Obligations.InstructionsKeepThePort := by
  intro i s t next
  rcases exec_port next with kept | ⟨done, rfl⟩
  · simp only [State.port, Prod.mk.injEq] at kept
    obtain ⟨params, latch, lastOp, requester, hosts⟩ := kept
    exact ⟨params, latch, lastOp, requester, by rw [hosts], .inl (by rw [hosts])⟩
  · exact ⟨rfl, rfl, rfl, rfl, rfl, .inr done⟩

/-! ### Reads that never return -/

theorem rxReadThen_of_hang (n : Nat) (k : Frame → State → State) (hang : s.link.draw.hang = true) :
    rxReadThen n k s = s :=
  if_pos hang

/-- Settles O34: an exchange reads at X_RX and ACTIVATE at A_PRX, and a hanging read leaves the state. -/
theorem endlessReadsAreStuck : Obligations.EndlessReadsAreStuck := by
  intro s i hang
  constructor
  · intro p exchange
    obtain ⟨start, answer, steps⟩ := exists_exchangeSteps exchange
    calc exec i s = .next (rxReadThen (answerLength i) answer s) := steps.reads s p
      _ = .next s := congrArg _ (rxReadThen_of_hang _ answer hang)
  · intro p
    calc exec .activate s = .next (rxReadThen statusLen onPoll s) := by simp [exec, execActivate, p]
      _ = .next s := congrArg _ (rxReadThen_of_hang statusLen onPoll hang)

end Sys2Proof.Machine
